-- ==== Sys2Proof/Word.lean ====
section
/-! DEFINITION. The widths of the engine's values (00_scope.md R9: `W = 32`; R11: unsigned, bit 0 least significant). -/

namespace Sys2Proof

/-- One byte lane of the host bus (20_memory.md R47). -/
abbrev Byte := BitVec 8

/-- A register, an operand, a reload or a compare value (00_scope.md R9, `W = 32`). -/
abbrev Word := BitVec 32

/-- A whole command, the pair of COMMAND and OPERAND (30_encoding.md R67). -/
abbrev CmdWord := BitVec 64

/-- A descriptor index as a command carries it and as the registry stores it (30_encoding.md R70, 10_state.md R30). -/
abbrev DescIndex := BitVec 8

/-- A timer index (10_state.md R23). -/
abbrev TimerIndex := BitVec 8

/-- A channel id (10_state.md R22); 1..5 are the legal ones. -/
abbrev Channel := BitVec 3

end Sys2Proof
end

