-- ==== Sys2Proof/Config.lean ====
section
/-! DEFINITION. What the source fixes as literals (00_scope.md R10) and what an implementation chooses (00_scope.md R9). -/

namespace Sys2Proof.Config

/-- Registry capacity, `REG_CAP` (00_scope.md R9). -/
abbrev regCap : Nat := 16

/-- Highest channel id, `N_CH` (00_scope.md R9). -/
abbrev nCh : Nat := 5

/-- The reload offset 2 of `2 + value * clock_scale` (00_scope.md R10). -/
abbrev reloadOffset : Nat := 2

/-- The start period 100 of `2 + 100 * clock_scale` (00_scope.md R10). -/
abbrev startPeriod : Nat := 100

/-- The full-on sentinel offset 100 of `reload + 100` (00_scope.md R10). -/
abbrev fullOnOffset : Nat := 100

/-- The duty scale, permille (00_scope.md R10). -/
abbrev dutyScale : Nat := 1000

/-- The duty conversion factor 10 of `round(value * 10)` (00_scope.md R10). -/
abbrev dutyFactor : Nat := 10

/-- The numerator of `100000 / (value / 10)` (00_scope.md R10). -/
abbrev freqNumerator : Nat := 100000

/-- The divisor of `value / 10` (00_scope.md R10). -/
abbrev freqDivisor : Nat := 10

/-- `DUTY_MUL`: the precision of SETDUTY's product (42_period_duty.md R102). -/
inductive DutyMul where
  | exact
  | binary32
  deriving DecidableEq, Repr

/-- The OPEN parameters that are not the size of a table (00_scope.md R9). -/
structure Straps where
  /-- `ENGINE_BASE`, the bus address of the register window. -/
  engineBase : Nat
  /-- `TIMER_WIDTH`, the width in bits of a timer's registers. -/
  timerWidth : Nat
  /-- `DUTY_MUL`. -/
  dutyMul : DutyMul
  deriving DecidableEq, Repr

/-- All five OPEN parameters (00_scope.md R9). -/
structure Params extends Straps where
  /-- `N_DESC`, the size of the descriptor table. -/
  nDesc : Nat
  /-- `N_TIMER`, the number of timers. -/
  nTimer : Nat
  deriving DecidableEq, Repr

/-- The ranges 00_scope.md R9 and 92_eei_decisions.md give for the OPEN parameters. -/
abbrev Params.Legal (p : Params) : Prop :=
  (1 ≤ p.nDesc ∧ p.nDesc ≤ 255) ∧ (1 ≤ p.nTimer ∧ p.nTimer ≤ 256) ∧
  p.engineBase % 16 = 0 ∧ (1 ≤ p.timerWidth ∧ p.timerWidth ≤ 32)

/-- The defaults for tests of 92_eei_decisions.md ("Open parameters").
DESIGN CHOICE (log entry 5): `ENGINE_BASE` has no default in the spec and is 0 here. -/
def defaultParams : Params :=
  { engineBase := 0, timerWidth := 32, dutyMul := .exact, nDesc := 32, nTimer := 4 }

end Sys2Proof.Config
end

