-- ==== Sys2Proof/Syntax.lean ====
section
/-! DEFINITION. The commands (30_encoding.md R72), the fields of a command word (R67), why a word is illegal (R75),
the lines of the assembler (R78 to R80) and the events of the event port (20_memory.md R55). -/

namespace Sys2Proof

/-- A command. One constructor per row of the opcode map (30_encoding.md R72); `operand` is the word of the
OPERAND field, which INIT, DEINIT, START and STOP ignore (R69) but which is part of the command's word. -/
inductive Instr where
  | config (desc : DescIndex) (tmr : TimerIndex) (ch : Channel) (clockScale : Word)
  | init (desc : DescIndex) (operand : Word)
  | deinit (desc : DescIndex) (operand : Word)
  | start (desc : DescIndex) (operand : Word)
  | stop (desc : DescIndex) (operand : Word)
  | setper (desc : DescIndex) (period : Word)
  | setduty (desc : DescIndex) (percent : Word)
  | setfreq (desc : DescIndex) (deciHz : Word)
  | rddesc (desc : DescIndex) (selector : Word)
  | rdeng (selector : Word)
  deriving DecidableEq, Repr

/-- The seven fields of format CMD64 (30_encoding.md R67). -/
structure Cmd64 where
  op : BitVec 4
  rsv1 : BitVec 4
  desc : DescIndex
  tmr : TimerIndex
  rsv2 : BitVec 5
  ch : Channel
  operand : Word
  deriving DecidableEq, Repr

/-- Why a word is no command, in the order 30_encoding.md R75 tests it. Every one of them executes as
ILLEGAL_COMMAND (R76). -/
inductive Illegal where
  /-- RSV1 or RSV2 is not 0 (R74 a, b). -/
  | reservedField
  /-- OP is 0x0 or 0xB..0xF (R73). -/
  | reservedOp
  /-- TMR or CH is not 0 outside CONFIG (R74 c). -/
  | strayTimerOrChannel
  /-- DESC is not 0 in RDENG (R74 d). -/
  | strayDescriptor
  deriving DecidableEq, Repr

/-- An event on the event port (20_memory.md R55). -/
inductive Event where
  | hookInit (t : TimerIndex) (ch : Channel)
  | hookDeinit (t : TimerIndex) (ch : Channel)
  | pwmStart (t : TimerIndex) (ch : Channel)
  | pwmStop (t : TimerIndex) (ch : Channel)
  | wrReload (t : TimerIndex) (r : Word)
  | wrCompare (t : TimerIndex) (ch : Channel) (c : Word)
  | csEnter
  | csExit
  | barrier
  deriving DecidableEq, Repr

/-- A duty literal of the assembler (30_encoding.md R78): a raw binary32 pattern, or a decimal number
`digits / 10 ^ fraction` with its sign. -/
inductive DutyLiteral where
  | raw (pattern : Nat)
  | decimal (negative : Bool) (digits fraction : Nat)
  deriving DecidableEq, Repr

/-- One line of the assembler: the ten mnemonics (30_encoding.md R79) and the five pseudo-commands (R80).
The operands are the numbers as written, not yet tested against their fields. -/
inductive AsmLine where
  | config (desc tmr ch clockScale : Nat)
  | init (desc : Nat)
  | deinit (desc : Nat)
  | start (desc : Nat)
  | stop (desc : Nat)
  | setper (desc period : Nat)
  | setduty (desc : Nat) (percent : DutyLiteral)
  | setfreq (desc deciHz : Nat)
  | rddesc (desc selector : Nat)
  | rdeng (selector : Nat)
  | off (desc : Nat)
  | fullon (desc : Nat)
  | rdcount
  | rdslot (k : Nat)
  | rdshadow (t : Nat)
  deriving DecidableEq, Repr

end Sys2Proof
end

