-- ==== Sys2Proof/WellFormed.lean ====
section
/-! DEFINITION. Which command words are legal (30_encoding.md R73, R74), said over the fields, and which lines an
assembler accepts (R79: an operand that does not fit its field is refused, never truncated). -/

namespace Sys2Proof

/-- The OP value is one of the ten of the opcode map (30_encoding.md R72, R73). -/
abbrev Cmd64.OpLegal (f : Cmd64) : Prop := 0x1 ≤ f.op.toNat ∧ f.op.toNat ≤ 0xA

/-- RSV1 and RSV2 are 0 (30_encoding.md R74 a, b). -/
abbrev Cmd64.ReservedZero (f : Cmd64) : Prop := f.rsv1 = 0 ∧ f.rsv2 = 0

/-- Outside CONFIG, TMR and CH are 0 (30_encoding.md R74 c). -/
abbrev Cmd64.TimerChannelZero (f : Cmd64) : Prop := f.op ≠ 0x1 → f.tmr = 0 ∧ f.ch = 0

/-- In RDENG, DESC is 0 (30_encoding.md R74 d). -/
abbrev Cmd64.DescZero (f : Cmd64) : Prop := f.op = 0xA → f.desc = 0

/-- The fields of a legal command (30_encoding.md R77). -/
abbrev Cmd64.WellFormed (f : Cmd64) : Prop :=
  f.OpLegal ∧ f.ReservedZero ∧ f.TimerChannelZero ∧ f.DescZero

/-- A duty literal the assembler can place in OPERAND (30_encoding.md R78). -/
def DutyLiteral.wellFormed : DutyLiteral → Bool
  | .raw p => decide (p < 2 ^ 32)
  | .decimal _ _ _ => true

/-- Every operand of the line fits its field (30_encoding.md R78 to R80). -/
def AsmLine.wellFormed : AsmLine → Bool
  | .config i t c v => decide (i < 256 ∧ t < 256 ∧ c < 8 ∧ v < 2 ^ 32)
  | .init i | .deinit i | .start i | .stop i | .off i | .fullon i => decide (i < 256)
  | .setper i v | .setfreq i v | .rddesc i v => decide (i < 256 ∧ v < 2 ^ 32)
  | .setduty i d => decide (i < 256) && d.wellFormed
  | .rdeng v => decide (v < 2 ^ 32)
  | .rdcount => true
  | .rdslot k => decide (k ≤ 15)
  | .rdshadow t => decide (t ≤ 255)

end Sys2Proof
end

