-- ==== Sys2Proof/Decode.lean ====
section
/-! DEFINITION. The decoder (30_encoding.md R75, total by R77), the encoder (R67, R72), the byte lanes of a word
(20_memory.md R47) and the rows of the opcode table. -/

namespace Sys2Proof

/-! ### Byte lanes -/

/-- The low `n` byte lanes of a number, the lane at offset +0 first and least significant (20_memory.md R47). -/
def lanesOf : Nat → Nat → List Byte
  | 0, _ => []
  | n + 1, v => BitVec.ofNat 8 v :: lanesOf n (v / 256)

/-- The number on byte lanes, the first lane least significant (20_memory.md R47). -/
def numberOfLanes : List Byte → Nat
  | [] => 0
  | b :: bs => b.toNat + 256 * numberOfLanes bs

/-- The 32-bit register value on four byte lanes (20_memory.md R47). -/
def wordOfLanes (lanes : List Byte) : Word := BitVec.ofNat 32 (numberOfLanes lanes)

/-- The four byte lanes of a 32-bit register value (20_memory.md R47). -/
def lanesOfWord (w : Word) : List Byte := lanesOf 4 w.toNat

/-! ### Fields of a command word -/

/-- `{COMMAND, OPERAND}` (30_encoding.md R67, R68). -/
def commandWord (command operand : Word) : CmdWord := command ++ operand

/-- The word's seven fields, at the bit positions of 30_encoding.md R67. -/
def fieldsOf (w : CmdWord) : Cmd64 :=
  { op := w.extractLsb' 60 4
    rsv1 := w.extractLsb' 56 4
    desc := w.extractLsb' 48 8
    tmr := w.extractLsb' 40 8
    rsv2 := w.extractLsb' 35 5
    ch := w.extractLsb' 32 3
    operand := w.extractLsb' 0 32 }

/-- The word of seven fields, most significant first (30_encoding.md R67). -/
def packFields (f : Cmd64) : CmdWord :=
  f.op ++ f.rsv1 ++ f.desc ++ f.tmr ++ f.rsv2 ++ f.ch ++ f.operand

/-! ### Decoder -/

/-- The command of a legal OP value (the `case op of` of 30_encoding.md R75). -/
def commandOfFields (f : Cmd64) : Except Illegal Instr :=
  match f.op.toNat with
  | 0x1 => .ok (.config f.desc f.tmr f.ch f.operand)
  | 0x2 => .ok (.init f.desc f.operand)
  | 0x3 => .ok (.deinit f.desc f.operand)
  | 0x4 => .ok (.start f.desc f.operand)
  | 0x5 => .ok (.stop f.desc f.operand)
  | 0x6 => .ok (.setper f.desc f.operand)
  | 0x7 => .ok (.setduty f.desc f.operand)
  | 0x8 => .ok (.setfreq f.desc f.operand)
  | 0x9 => .ok (.rddesc f.desc f.operand)
  | 0xA => .ok (.rdeng f.operand)
  | _ => .error .reservedOp

/-- The tests of `Run(w)` in their order, then the dispatch on OP (30_encoding.md R75). -/
def decodeFields (f : Cmd64) : Except Illegal Instr :=
  if f.rsv1 ≠ 0 ∨ f.rsv2 ≠ 0 then .error .reservedField
  else if f.op = 0x0 ∨ 0xB ≤ f.op.toNat then .error .reservedOp
  else if f.op ≠ 0x1 ∧ (f.tmr ≠ 0 ∨ f.ch ≠ 0) then .error .strayTimerOrChannel
  else if f.op = 0xA ∧ f.desc ≠ 0 then .error .strayDescriptor
  else commandOfFields f

/-- The decoder, total on command words (30_encoding.md R77). -/
def decode (w : CmdWord) : Except Illegal Instr := decodeFields (fieldsOf w)

/-- The decoder over the window's first eight byte lanes: OPERAND at +0, COMMAND at +4 (20_memory.md R46, R47). -/
def decodeLanes (lanes : List Byte) : Except Illegal Instr :=
  decode (commandWord (wordOfLanes ((lanes.drop 4).take 4)) (wordOfLanes (lanes.take 4)))

/-- What the decoder reads from a command whose bits are `w`, numbered as the opcode table numbers them
(30_encoding.md R67: bits 31:0 are OPERAND, bits 63:32 are COMMAND). -/
def decodeTableWord (nbits w : Nat) : Option Instr :=
  match decodeLanes (lanesOf 8 (w % 2 ^ nbits)) with
  | .ok i => some i
  | .error _ => none

/-! ### Encoder -/

/-- The OP field of a command (30_encoding.md R72). -/
def opOf : Instr → BitVec 4
  | .config _ _ _ _ => 0x1
  | .init _ _ => 0x2
  | .deinit _ _ => 0x3
  | .start _ _ => 0x4
  | .stop _ _ => 0x5
  | .setper _ _ => 0x6
  | .setduty _ _ => 0x7
  | .setfreq _ _ => 0x8
  | .rddesc _ _ => 0x9
  | .rdeng _ => 0xA

/-- The fields a command sets; the fields it does not set are 0 (30_encoding.md R79). -/
def fieldsOfInstr : Instr → Cmd64
  | .config i t c v => { op := 0x1, rsv1 := 0, desc := i, tmr := t, rsv2 := 0, ch := c, operand := v }
  | .init i v => { op := 0x2, rsv1 := 0, desc := i, tmr := 0, rsv2 := 0, ch := 0, operand := v }
  | .deinit i v => { op := 0x3, rsv1 := 0, desc := i, tmr := 0, rsv2 := 0, ch := 0, operand := v }
  | .start i v => { op := 0x4, rsv1 := 0, desc := i, tmr := 0, rsv2 := 0, ch := 0, operand := v }
  | .stop i v => { op := 0x5, rsv1 := 0, desc := i, tmr := 0, rsv2 := 0, ch := 0, operand := v }
  | .setper i v => { op := 0x6, rsv1 := 0, desc := i, tmr := 0, rsv2 := 0, ch := 0, operand := v }
  | .setduty i v => { op := 0x7, rsv1 := 0, desc := i, tmr := 0, rsv2 := 0, ch := 0, operand := v }
  | .setfreq i v => { op := 0x8, rsv1 := 0, desc := i, tmr := 0, rsv2 := 0, ch := 0, operand := v }
  | .rddesc i v => { op := 0x9, rsv1 := 0, desc := i, tmr := 0, rsv2 := 0, ch := 0, operand := v }
  | .rdeng v => { op := 0xA, rsv1 := 0, desc := 0, tmr := 0, rsv2 := 0, ch := 0, operand := v }

/-- The command's word (30_encoding.md R67, R72). -/
def encode (i : Instr) : CmdWord := packFields (fieldsOfInstr i)

/-! ### The opcode table -/

/-- The `match` and `mask` values of the ten rows of spec/opcode_table.json, in its order. -/
def opcodeTable : List (CmdWord × CmdWord) :=
  [ (0x1000000000000000, 0xFF0000F800000000)
  , (0x2000000000000000, 0xFF00FFFF00000000)
  , (0x3000000000000000, 0xFF00FFFF00000000)
  , (0x4000000000000000, 0xFF00FFFF00000000)
  , (0x5000000000000000, 0xFF00FFFF00000000)
  , (0x6000000000000000, 0xFF00FFFF00000000)
  , (0x7000000000000000, 0xFF00FFFF00000000)
  , (0x8000000000000000, 0xFF00FFFF00000000)
  , (0x9000000000000000, 0xFF00FFFF00000000)
  , (0xA000000000000000, 0xFFFFFFFF00000000) ]

/-- The row of a command in `opcodeTable`, by its OP value: OP 1 is the first row. -/
def rowOf (i : Instr) : Option (CmdWord × CmdWord) := opcodeTable[(opOf i).toNat - 1]?

end Sys2Proof
end

