-- ==== Sys2Proof/Machine/State.lean ====
section
/-! DEFINITION. The engine's state (10_state.md R20 to R36), its reset (R42), and the kinds of stop, of which the
engine has none (60_exceptions.md R132). -/

namespace Sys2Proof.Machine

/-- `D[i].state` (10_state.md R28: INACTIVE = 0, ACTIVE = 1). -/
inductive ChanState where
  | inactive
  | active
  deriving DecidableEq, Repr

/-- One descriptor slot (10_state.md R22 to R28). -/
structure Desc where
  /-- `channel_id`, 1..5 once configured (R22). -/
  ch : Channel
  /-- `timer_handle`, the index of a timer (R23). -/
  tmr : TimerIndex
  /-- Configured; a slot with `cfg = 0` is absent (R24). -/
  cfg : Bool
  /-- `clock_scale` (R25). -/
  cs : Word
  /-- `period_value` (R26). -/
  period : Word
  /-- `duty_permille`, 0..1000 (R27). -/
  duty : BitVec 10
  /-- INACTIVE or ACTIVE (R28). -/
  state : ChanState
  deriving DecidableEq, Repr

/-- A slot at reset (10_state.md R42). -/
def Desc.reset : Desc :=
  { ch := 0, tmr := 0, cfg := false, cs := 0, period := 0, duty := 0, state := .inactive }

/-- The status codes (60_exceptions.md R125); codes 7..15 are never produced. -/
inductive Code where
  | ok
  | skip
  | invalidArgument
  | outOfRange
  | capacityExceeded
  | divideByZero
  | illegalCommand
  deriving DecidableEq, Repr

/-- What the host or the platform does to the engine next (60_exceptions.md R144, 70_reset_and_hazards.md R145). -/
inductive Input where
  /-- `MemWrite(addr, n, v)`, `v` on `n` byte lanes, the lane at `addr` first (20_memory.md R47, R50). -/
  | write (addr : Nat) (lanes : List Byte)
  /-- `MemRead(addr, size)` (20_memory.md R50). -/
  | read (addr size : Nat)
  /-- The platform asserts the reset input (70_reset_and_hazards.md R145). -/
  | reset
  deriving DecidableEq, Repr

/-- The bus's answer to a host access (20_memory.md R48 to R52). -/
inductive Response where
  /-- The write completed. -/
  | writeDone
  /-- The read completed with the value on these byte lanes. -/
  | readDone (lanes : List Byte)
  /-- Bus error on a write: no effect (R48). -/
  | writeError
  /-- Bus error on a read, with the 0 it returns (R48). -/
  | readError (lanes : List Byte)
  /-- The access touches no byte of the window: the engine does not answer (log entry 4). -/
  | notSelected
  deriving DecidableEq, Repr

/-- The engine's state: the four parts of 10_state.md R20, the parameters (00_scope.md R9) and the wires to the
outside. `N_DESC` is the length of `desc` and `N_TIMER` the length of `shadow` (log entry 5). -/
structure State where
  /-- The descriptor table `D[0 .. N_DESC-1]` (10_state.md R21). -/
  desc : List Desc
  /-- `REG.slot[0 .. 15]` (10_state.md R30). -/
  regSlot : Vector DescIndex 16
  /-- `REG.count` (10_state.md R30). -/
  regCount : BitVec 5
  /-- `SHADOW[0 .. N_TIMER-1]` (10_state.md R32). -/
  shadow : List Word
  /-- `OPERAND` (10_state.md R33). -/
  operand : Word
  /-- `COMMAND` (10_state.md R34). -/
  command : Word
  /-- `STATUS.CODE` (10_state.md R35). -/
  code : Code
  /-- `STATUS.LAST_OP` (10_state.md R35). -/
  lastOp : BitVec 4
  /-- `RDATA` (10_state.md R36). -/
  rdata : Word
  /-- `ENGINE_BASE`, `TIMER_WIDTH` and `DUTY_MUL`: parameters no step changes (10_state.md R43). -/
  straps : Config.Straps
  /-- The MODEL's own field: the events put on the event port so far, oldest first (20_memory.md R55; log entry 2). -/
  events : List Event
  /-- The MODEL's own field: the host's and the platform's moves still to come, the next one first (log entry 1). -/
  inputs : List Input
  /-- The MODEL's own field: the bus's answer to the latest host access (log entry 3). -/
  response : Option Response
  deriving DecidableEq, Repr

/-- Why the machine would stop with a fault. It has no constructor, because the engine has no trap and "never enters a
stuck or halted state" (60_exceptions.md R129, R132): an error is a status code or a bus error, and the machine goes
on (log entry 15). -/
inductive Fault where
  deriving DecidableEq, Repr

/-- Why an instruction would have no meaning. -/
inductive Refusal where
  /-- Raised by `exec` for a command whose meaning is not written yet; no arm raises it now. Safe. -/
  | notModelled (mnemonic : String)
  deriving DecidableEq, Repr

/-- What a step or a meaning answers. -/
abbrev Outcome := Host.Outcome State Fault Refusal

/-- `N_DESC` (00_scope.md R9). -/
abbrev State.nDesc (s : State) : Nat := s.desc.length

/-- `N_TIMER` (00_scope.md R9). -/
abbrev State.nTimer (s : State) : Nat := s.shadow.length

/-- The parameters the engine was built with (00_scope.md R9). -/
def State.params (s : State) : Config.Params :=
  { s.straps with nDesc := s.nDesc, nTimer := s.nTimer }

/-- The state right after reset of an engine with parameters `p` (10_state.md R42). -/
def State.resetWith (p : Config.Params) : State :=
  { desc := List.replicate p.nDesc Desc.reset
    regSlot := Vector.replicate 16 0
    regCount := 0
    shadow := List.replicate p.nTimer 0
    operand := 0
    command := 0
    code := .ok
    lastOp := 0
    rdata := 0
    straps := p.toStraps
    events := []
    inputs := []
    response := none }

/-- The machine right after reset, with the default parameters (10_state.md R42; log entry 5). -/
def State.reset : State := State.resetWith Config.defaultParams

end Sys2Proof.Machine
end

