-- ==== Sys2Proof/Machine/Flags.lean ====
section
/-! DEFINITION. The two things that act as flags (10_state.md R37): `D[i].state` as a bit, and `STATUS`. -/

namespace Sys2Proof.Machine

/-- `D[i].state` as the bit it is (10_state.md R28). -/
def stateBit : ChanState → BitVec 1
  | .inactive => 0
  | .active => 1

/-- The number of a status code (60_exceptions.md R125). -/
def codeBits : Code → BitVec 4
  | .ok => 0
  | .skip => 1
  | .invalidArgument => 2
  | .outOfRange => 3
  | .capacityExceeded => 4
  | .divideByZero => 5
  | .illegalCommand => 6

/-- The source's `Error` among its `{Ok, Skip, Error}`: the codes 2 and above (60_exceptions.md R125, R131). -/
def isError (c : Code) : Bool := decide (2 ≤ (codeBits c).toNat)

/-- What a read of STATUS returns: `zext_32({REG.count, LAST_OP, CODE})` (10_state.md R35, 20_memory.md R50). -/
def statusWord (s : State) : Word := (0 : BitVec 19) ++ s.regCount ++ s.lastOp ++ codeBits s.code

end Sys2Proof.Machine
end

