-- ==== Sys2Proof/Machine/Operands.lean ====
section
/-! DEFINITION. The datapath functions: the binary32 operand (00_scope.md R16, R17), `rne32` and `DutyConv`
(42_period_duty.md R101, R102), `Compare` (R99), `Reload` (R100) and `FreqToPeriod` (R103). -/

namespace Sys2Proof.Machine

/-! ### The binary32 operand

A finite binary32 value is a whole number of units of 2^-149, so a value is kept as that whole number. -/

/-- `sign(f) = f[31]` (00_scope.md R16). -/
def f32Sign (f : Word) : Bool := f.getLsbD 31

/-- `exp(f) = f[30:23]` (00_scope.md R16). -/
def f32Exp (f : Word) : Nat := (f.extractLsb' 23 8).toNat

/-- `frac(f) = f[22:0]` (00_scope.md R16). -/
def f32Frac (f : Word) : Nat := (f.extractLsb' 0 23).toNat

/-- The number of units of the rational grid in 1: every finite binary32 value is a multiple of 2^-149
(00_scope.md R16). -/
def f32One : Nat := 2 ^ 149

/-- The magnitude of a finite pattern, in units of 2^-149: `frac` where `exp = 0`, else
`(2^23 + frac) * 2^(exp-1)` (00_scope.md R16). -/
def f32Magnitude (f : Word) : Nat :=
  if f32Exp f = 0 then f32Frac f else (2 ^ 23 + f32Frac f) * 2 ^ (f32Exp f - 1)

/-- A magnitude with its sign. -/
def signed (negative : Bool) (m : Nat) : Int := if negative then -(m : Int) else (m : Int)

/-- `rne32` on a magnitude `num / den`, in units of 2^-149 (42_period_duty.md R101): the nearest binary32 value, ties
to the even significand; none where it rounds to an infinity, from `2^128 - 2^103` on. A significand has 24 bits, so a
magnitude of bit length `24 + k` is rounded to a multiple of `2^k`. -/
def rne32 (num den : Nat) : Option Nat :=
  if (2 ^ 128 - 2 ^ 103) * f32One * den ≤ num then none
  else
    let k := Nat.log2 (num / den) - 23
    let unit := den * 2 ^ k
    let q := num / unit
    let r := num % unit
    let m := if 2 * r < unit then q else if unit < 2 * r then q + 1 else q + q % 2
    some (m * 2 ^ k)

/-- `round_half_away` of `num / den` for a magnitude (00_scope.md R17). -/
def roundHalfAway (num den : Nat) : Nat := (2 * num + den) / (2 * den)

/-- `DutyConv(f)`: the permille of a duty in percent, or none (42_period_duty.md R101). `round_half_away` is odd, so
it is taken on the magnitude and the sign put back. -/
def dutyConv (mul : Config.DutyMul) (f : Word) : Option Int :=
  if f32Exp f = 0xFF then none
  else
    match mul with
    | .exact => some (signed (f32Sign f) (roundHalfAway (Config.dutyFactor * f32Magnitude f) f32One))
    | .binary32 =>
      match rne32 (Config.dutyFactor * f32Magnitude f) 1 with
      | none => none
      | some y => some (signed (f32Sign f) (roundHalfAway y f32One))

/-! ### Compare, reload and frequency -/

/-- `Compare(d, r)` (42_period_duty.md R99); the full-on sentinel wraps mod 2^32 (R110). -/
def compareValue (d : Nat) (r : Word) : Word :=
  if d = 0 then 0
  else if d = Config.dutyScale then BitVec.ofNat 32 (r.toNat + Config.fullOnOffset)
  else BitVec.ofNat 32 (1 + d * r.toNat / Config.dutyScale)

/-- `Reload(v, s) = trunc_32(2 + v * s)` (42_period_duty.md R100). -/
def reloadValue (v s : Nat) : Word := BitVec.ofNat 32 (Config.reloadOffset + v * s)

/-- `FreqToPeriod(v)`, none where `v < 10` (42_period_duty.md R103). -/
def freqToPeriod (v : Nat) : Option Nat :=
  let q := v / Config.freqDivisor
  if q = 0 then none else some (Config.freqNumerator / q)

end Sys2Proof.Machine
end

