-- ==== Sys2Proof/Machine/Ops.lean ====
section
/-! DEFINITION. The shared operations over the state: `D[i]`, `emit`, `raise` and the end of a command (00_scope.md R13,
R14), the registry's `Register` and `Siblings` (40_registry.md R85, R88) and the fan-out `ApplyReload`
(42_period_duty.md R105). -/

namespace Sys2Proof.Machine

/-! ### Descriptors and shadows -/

/-- `D[i]`. An index that addresses no slot reads as an absent slot (30_encoding.md R70; log entry 18). -/
def descAt (s : State) (i : DescIndex) : Desc := s.desc.getD i.toNat Desc.reset

/-- `D[i].f <- v` for the fields `f` changes; nothing where `i` addresses no slot. -/
def modDesc (i : DescIndex) (f : Desc → Desc) (s : State) : State :=
  { s with desc := s.desc.modify i.toNat f }

/-- `present(i)`: the index addresses a slot, and the slot is configured (00_scope.md R15). -/
def present (s : State) (i : DescIndex) : Bool := decide (i.toNat < s.nDesc) && (descAt s i).cfg

/-- `SHADOW[t]` (10_state.md R32). -/
def shadowAt (s : State) (t : TimerIndex) : Word := s.shadow.getD t.toNat 0

/-- `SHADOW[t] <- r`. -/
def setShadow (t : TimerIndex) (r : Word) (s : State) : State :=
  { s with shadow := s.shadow.set t.toNat r }

/-- `RDATA <- x` (10_state.md R36). -/
def setRdata (x : Word) (s : State) : State := { s with rdata := x }

/-! ### Events -/

/-- `emit` of several events in a row (00_scope.md R14). -/
def emitAll (es : List Event) (s : State) : State := { s with events := s.events ++ es }

/-- `emit E` (00_scope.md R14). -/
def emit (e : Event) (s : State) : State := emitAll [e] s

/-! ### The end of a command -/

/-- How a command's `Run` ends: its status code and the state it leaves (30_encoding.md R75). -/
abbrev Result := Code × State

/-- `raise X()`: the command ends at once with code `X`. Every check stands before every write, so the state it leaves
is the one it found (00_scope.md R14, 60_exceptions.md R128). This is the engine's only error path (R129). -/
def raise (c : Code) (s : State) : Result := (c, s)

/-- `return SKIP`: success without effect (60_exceptions.md R131). -/
def skip (s : State) : Result := (.skip, s)

/-- `return OK`. -/
def done (s : State) : Result := (.ok, s)

/-- The last two lines of `Execute`: CODE and LAST_OP (30_encoding.md R75). Every command ends here, whatever its
code (10_state.md R35). -/
def finish (op : BitVec 4) (r : Result) : Outcome := .next { r.2 with code := r.1, lastOp := op }

/-! ### Registry -/

/-- `REG.slot[0 .. REG.count-1]` (10_state.md R30). -/
def regList (s : State) : List DescIndex := s.regSlot.toList.take s.regCount.toNat

/-- `registered(i)` (00_scope.md R15). -/
def registered (s : State) (i : DescIndex) : Bool := decide (i ∈ regList s)

/-- `REG.count == 16` (40_registry.md R86). -/
def registryFull (s : State) : Bool := decide (s.regCount.toNat = Config.regCap)

/-- The two writes of an insertion: `REG.slot[REG.count] <- i`, `REG.count <- REG.count + 1` (40_registry.md R85). -/
def appendReg (i : DescIndex) (s : State) : State :=
  { s with regSlot := s.regSlot.setIfInBounds s.regCount.toNat i, regCount := s.regCount + 1 }

/-- `Register(i)` (40_registry.md R85). -/
def register (i : DescIndex) (s : State) : Result :=
  if registered s i then done s
  else if registryFull s then raise .capacityExceeded s
  else done (appendReg i s)

/-- `Siblings(t)`: the registered ACTIVE descriptors on timer `t`, in registry order (40_registry.md R88). -/
def siblings (s : State) (t : TimerIndex) : List DescIndex :=
  (regList s).filter fun j => decide ((descAt s j).tmr = t ∧ (descAt s j).state = .active)

/-! ### Fan-out -/

/-- `WR_COMPARE(t, D[j].ch, Compare(D[j].duty, r))`, a sibling's share of the fan-out (42_period_duty.md R105). -/
def siblingEvent (s : State) (t : TimerIndex) (r : Word) (j : DescIndex) : Event :=
  .wrCompare t (descAt s j).ch (compareValue (descAt s j).duty.toNat r)

/-- `ApplyReload(t, r)` (42_period_duty.md R105): the reload write and every sibling's compare write in one critical
section (R106), then the barrier. The siblings are taken after the write of the shadow. -/
def applyReload (t : TimerIndex) (r : Word) (s : State) : State :=
  let s1 := emit .csEnter s
  let s2 := emit (.wrReload t r) s1
  let s3 := setShadow t r s2
  let s4 := emitAll ((siblings s3 t).map (siblingEvent s3 t r)) s3
  let s5 := emit .csExit s4
  emit .barrier s5

end Sys2Proof.Machine
end

