-- ==== Sys2Proof/Machine/Lifecycle.lean ====
section
/-! DEFINITION. INIT, DEINIT, START and STOP (41_lifecycle.md R91 to R98). -/

namespace Sys2Proof.Machine

/-- The writes of `period` and `duty` that INIT, DEINIT and START share (10_state.md R26, R27). -/
def clearCache (d : Desc) : Desc := { d with period := 0, duty := 0 }

/-- `D[i].state <- INACTIVE` (10_state.md R28). -/
def deactivate (d : Desc) : Desc := { d with state := .inactive }

/-- `D[i].state <- ACTIVE` (10_state.md R28). -/
def activate (d : Desc) : Desc := { d with state := .active }

/-- `INIT(i)` (41_lifecycle.md R91): the registry is tested before any write, so `Register` answers OK here. -/
def runInit (i : DescIndex) (s : State) : Result :=
  if !present s i then raise .invalidArgument s
  else if !registered s i && registryFull s then raise .capacityExceeded s
  else
    let s1 := emit (.hookInit (descAt s i).tmr (descAt s i).ch) s
    let s2 := modDesc i clearCache s1
    let s3 := modDesc i deactivate s2
    done (register i s3).2

/-- INIT, with the STATUS writes that end it (30_encoding.md R75). -/
def execInit (i : DescIndex) (s : State) : Outcome := finish 0x2 (runInit i s)

/-- `DEINIT(i)` (41_lifecycle.md R93): the configuration and the registry entry stay (R94). -/
def runDeinit (i : DescIndex) (s : State) : Result :=
  if !present s i then raise .invalidArgument s
  else
    let s1 := modDesc i deactivate s
    let s2 := emit (.hookDeinit (descAt s1 i).tmr (descAt s1 i).ch) s1
    done (modDesc i clearCache s2)

/-- DEINIT, with the STATUS writes that end it (30_encoding.md R75). -/
def execDeinit (i : DescIndex) (s : State) : Outcome := finish 0x3 (runDeinit i s)

/-- `START(i)` (41_lifecycle.md R95): SKIP if ACTIVE; else the reload goes through `ApplyReload`, while the starting
descriptor is still INACTIVE (R96). -/
def runStart (i : DescIndex) (s : State) : Result :=
  if !present s i then raise .invalidArgument s
  else if (descAt s i).state = .active then skip s
  else
    let t := (descAt s i).tmr
    let ch := (descAt s i).ch
    let s1 := modDesc i clearCache s
    let s2 := emit (.wrCompare t ch 0) s1
    let s3 := applyReload t (reloadValue Config.startPeriod (descAt s2 i).cs.toNat) s2
    let s4 := emit (.pwmStart t ch) s3
    done (modDesc i activate s4)

/-- START, with the STATUS writes that end it (30_encoding.md R75). -/
def execStart (i : DescIndex) (s : State) : Outcome := finish 0x4 (runStart i s)

/-- `STOP(i)` (41_lifecycle.md R97): no skip case, and the cached period and duty stay (R98). -/
def runStop (i : DescIndex) (s : State) : Result :=
  if !present s i then raise .invalidArgument s
  else
    let s1 := emit (.pwmStop (descAt s i).tmr (descAt s i).ch) s
    done (modDesc i deactivate s1)

/-- STOP, with the STATUS writes that end it (30_encoding.md R75). -/
def execStop (i : DescIndex) (s : State) : Outcome := finish 0x5 (runStop i s)

end Sys2Proof.Machine
end

