-- ==== Sys2Proof/Machine/PeriodDuty.lean ====
section
/-! DEFINITION. SETPER, SETDUTY and SETFREQ (42_period_duty.md R107 to R118). -/

namespace Sys2Proof.Machine

/-- `D[i].period <- v` (10_state.md R26). -/
def withPeriod (v : Word) (d : Desc) : Desc := { d with period := v }

/-- `D[i].duty <- p` (10_state.md R27). -/
def withDuty (p : BitVec 10) (d : Desc) : Desc := { d with duty := p }

/-- The two writes that SETPER and SETFREQ share once the descriptor is present: the requester's `period`
(42_period_duty.md R108) and the fan-out of the requester's reload (R107, R116). -/
def changePeriod (i : DescIndex) (v : Word) (s : State) : State :=
  let s1 := modDesc i (withPeriod v) s
  applyReload (descAt s1 i).tmr (reloadValue v.toNat (descAt s1 i).cs.toNat) s1

/-- `SETPER(i, v)` (42_period_duty.md R107). -/
def runSetper (i : DescIndex) (v : Word) (s : State) : Result :=
  if !present s i then raise .invalidArgument s
  else done (changePeriod i v s)

/-- SETPER, with the STATUS writes that end it (30_encoding.md R75). -/
def execSetper (i : DescIndex) (v : Word) (s : State) : Outcome := finish 0x6 (runSetper i v s)

/-- The part of SETDUTY after the conversion gave `p` (42_period_duty.md R112): the range test stands before the skip
test and before every write (R113), and the skip test compares permilles (R114). -/
def applyDuty (i : DescIndex) (p : Int) (s : State) : Result :=
  if p < 0 ∨ (Config.dutyScale : Int) < p then raise .outOfRange s
  else if p = ((descAt s i).duty.toNat : Int) then skip s
  else
    let s1 := modDesc i (withDuty (BitVec.ofInt 10 p)) s
    let t := (descAt s1 i).tmr
    let s2 := emit (.wrCompare t (descAt s1 i).ch (compareValue p.toNat (shadowAt s1 t))) s1
    done (emit .barrier s2)

/-- `SETDUTY(i, f)` (42_period_duty.md R112), against the reload shadow (R111). -/
def runSetduty (i : DescIndex) (f : Word) (s : State) : Result :=
  if !present s i then raise .invalidArgument s
  else
    match dutyConv s.straps.dutyMul f with
    | none => raise .outOfRange s
    | some p => applyDuty i p s

/-- SETDUTY, with the STATUS writes that end it (30_encoding.md R75). -/
def execSetduty (i : DescIndex) (f : Word) (s : State) : Outcome := finish 0x7 (runSetduty i f s)

/-- `SETFREQ(i, v)` (42_period_duty.md R116): absence before the divide check (60_exceptions.md R127). -/
def runSetfreq (i : DescIndex) (v : Word) (s : State) : Result :=
  if !present s i then raise .invalidArgument s
  else
    match freqToPeriod v.toNat with
    | none => raise .divideByZero s
    | some p => done (changePeriod i (BitVec.ofNat 32 p) s)

/-- SETFREQ, with the STATUS writes that end it (30_encoding.md R75). -/
def execSetfreq (i : DescIndex) (v : Word) (s : State) : Outcome := finish 0x8 (runSetfreq i v s)

end Sys2Proof.Machine
end

