-- ==== Sys2Proof/Machine/Readback.lean ====
section
/-! DEFINITION. RDDESC and RDENG (43_readback.md R119 to R124). -/

namespace Sys2Proof.Machine

/-- `DescWord(i)` (43_readback.md R120), bits 31 down to 0. -/
def descWord (s : State) (i : DescIndex) : Word :=
  (0 : BitVec 8) ++ (descAt s i).tmr ++ (0 : BitVec 5) ++ (descAt s i).ch ++ (0 : BitVec 5) ++
  BitVec.ofBool (registered s i) ++ BitVec.ofBool (descAt s i).cfg ++ stateBit (descAt s i).state

/-- The value RDDESC selects, none for a bad selector (43_readback.md R119). -/
def descField (s : State) (i : DescIndex) (sel : Word) : Option Word :=
  match sel.toNat with
  | 0 => some (descWord s i)
  | 1 => some ((descAt s i).duty.zeroExtend 32)
  | 2 => some (descAt s i).period
  | 3 => some (descAt s i).cs
  | 4 => some (if (descAt s i).cfg then shadowAt s (descAt s i).tmr else 0)
  | _ => none

/-- `RDDESC(i, s)` (43_readback.md R119); it does not need `present(i)`. -/
def runRddesc (i : DescIndex) (sel : Word) (s : State) : Result :=
  if s.nDesc ≤ i.toNat then raise .invalidArgument s
  else
    match descField s i sel with
    | none => raise .invalidArgument s
    | some x => done (setRdata x s)

/-- RDDESC, with the STATUS writes that end it (30_encoding.md R75). -/
def execRddesc (i : DescIndex) (sel : Word) (s : State) : Outcome := finish 0x9 (runRddesc i sel s)

/-- What RDENG reads at registry position `k`: the slot, or 0xFFFF_FFFF from `REG.count` on (43_readback.md R121). -/
def regPosition (s : State) (k : Nat) : Word :=
  if k < s.regCount.toNat then (s.regSlot.toList.getD k 0).zeroExtend 32 else 0xFFFFFFFF

/-- The value RDENG selects, none for a bad selector (43_readback.md R121, R122). -/
def engineField (s : State) (sel : Word) : Option Word :=
  let n := sel.toNat
  if n = 0x000 then some (s.regCount.zeroExtend 32)
  else if 0x100 ≤ n ∧ n ≤ 0x10F then some (regPosition s (n - 0x100))
  else if 0x200 ≤ n ∧ n < 0x200 + s.nTimer then some (s.shadow.getD (n - 0x200) 0)
  else none

/-- `RDENG(s)` (43_readback.md R121). -/
def runRdeng (sel : Word) (s : State) : Result :=
  match engineField s sel with
  | none => raise .invalidArgument s
  | some x => done (setRdata x s)

/-- RDENG, with the STATUS writes that end it (30_encoding.md R75). -/
def execRdeng (sel : Word) (s : State) : Outcome := finish 0xA (runRdeng sel s)

end Sys2Proof.Machine
end

