-- ==== Sys2Proof/Machine/Registry.lean ====
section
/-! DEFINITION. CONFIG (40_registry.md R83, R84). -/

namespace Sys2Proof.Machine

/-- The four writes of CONFIG (40_registry.md R83). -/
def configure (t : TimerIndex) (ch : Channel) (v : Word) (d : Desc) : Desc :=
  { d with ch := ch, tmr := t, cs := v, cfg := true }

/-- `CONFIG(i, t, ch, v)` (40_registry.md R83); an ACTIVE slot is refused (R84). -/
def runConfig (i : DescIndex) (t : TimerIndex) (ch : Channel) (v : Word) (s : State) : Result :=
  if s.nDesc ≤ i.toNat then raise .invalidArgument s
  else if s.nTimer ≤ t.toNat ∨ ch.toNat < 1 ∨ Config.nCh < ch.toNat then raise .invalidArgument s
  else if (descAt s i).state = .active then raise .invalidArgument s
  else done (modDesc i (configure t ch v) s)

/-- CONFIG, with the STATUS writes that end it (30_encoding.md R75). -/
def execConfig (i : DescIndex) (t : TimerIndex) (ch : Channel) (v : Word) (s : State) : Outcome :=
  finish 0x1 (runConfig i t ch v s)

end Sys2Proof.Machine
end

