-- ==== Sys2Proof/Machine/Dispatch.lean ====
section
/-! DEFINITION. The `case op of` of 30_encoding.md R75: one meaning per command. -/

namespace Sys2Proof.Machine

def exec (i : Instr) (s : State) : Host.Outcome State Fault Refusal :=
  match i with
  | .config d t c v => Sys2Proof.Machine.execConfig d t c v s
  | .init d _ => Sys2Proof.Machine.execInit d s
  | .deinit d _ => Sys2Proof.Machine.execDeinit d s
  | .start d _ => Sys2Proof.Machine.execStart d s
  | .stop d _ => Sys2Proof.Machine.execStop d s
  | .setper d v => Sys2Proof.Machine.execSetper d v s
  | .setduty d f => Sys2Proof.Machine.execSetduty d f s
  | .setfreq d v => Sys2Proof.Machine.execSetfreq d v s
  | .rddesc d x => Sys2Proof.Machine.execRddesc d x s
  | .rdeng x => Sys2Proof.Machine.execRdeng x s

end Sys2Proof.Machine
end

