-- ==== Sys2Proof/Machine/Bus.lean ====
section
/-! DEFINITION. The host register window (20_memory.md R45 to R54, R66), `Execute` (30_encoding.md R75, R76) and the
platform's reset input (70_reset_and_hazards.md R145). -/

namespace Sys2Proof.Machine

/-! ### The window -/

/-- The four registers of the window (20_memory.md R46). -/
inductive WindowReg where
  | operand
  | command
  | status
  | rdata
  deriving DecidableEq, Repr

/-- The offset of a register from `ENGINE_BASE` (20_memory.md R46). -/
def windowOffset : WindowReg → Nat
  | .operand => 0x0
  | .command => 0x4
  | .status => 0x8
  | .rdata => 0xC

/-- The access of `n` bytes at `addr` touches a byte of the 16-byte window (20_memory.md R45, R66). -/
def touchesWindow (base addr n : Nat) : Bool := decide (addr < base + 16 ∧ base < addr + n)

/-- The register an accepted access addresses: 4 bytes at one of the four offsets (20_memory.md R48). -/
def windowReg (base addr n : Nat) : Option WindowReg :=
  if n ≠ 4 then none
  else if addr = base + windowOffset .operand then some .operand
  else if addr = base + windowOffset .command then some .command
  else if addr = base + windowOffset .status then some .status
  else if addr = base + windowOffset .rdata then some .rdata
  else none

/-- The value a read of a register returns (20_memory.md R50). -/
def readReg (s : State) : WindowReg → Word
  | .operand => s.operand
  | .command => s.command
  | .status => statusWord s
  | .rdata => s.rdata

/-- Put the bus's answer on the response wire. -/
def respond (r : Response) (s : State) : State := { s with response := some r }

/-- Answer after the command has ended (20_memory.md R52). -/
def respondAfter (r : Response) : Outcome → Outcome
  | .next s => .next (respond r s)
  | .fault e => .fault e
  | .refused e => .refused e

/-! ### Execute -/

/-- An ILLEGAL_COMMAND: CODE and LAST_OP, and nothing else (30_encoding.md R76). -/
def illegalCommand (w : CmdWord) (s : State) : Outcome :=
  finish (w.extractLsb' 60 4) (raise .illegalCommand s)

/-- `Execute(w)` (30_encoding.md R75). -/
def execute (w : CmdWord) (s : State) : Outcome :=
  match decode w with
  | .ok i => exec i s
  | .error _ => illegalCommand w s

/-! ### Host accesses -/

/-- `OPERAND <- v` (20_memory.md R49). -/
def setOperand (v : Word) (s : State) : State := { s with operand := v }

/-- `COMMAND <- v` (20_memory.md R50). -/
def setCommand (v : Word) (s : State) : State := { s with command := v }

/-- An accepted write (20_memory.md R49, R50): STATUS and RDATA ignore it, COMMAND executes `{v, OPERAND}`. -/
def writeReg (v : Word) (s : State) : WindowReg → Outcome
  | .operand => .next (setOperand v s)
  | .command => execute (commandWord v s.operand) (setCommand v s)
  | .status => .next s
  | .rdata => .next s

/-- `MemWrite(addr, n, v)` with `v` on `n` lanes (20_memory.md R47 to R50). -/
def memWrite (addr : Nat) (lanes : List Byte) (s : State) : Outcome :=
  if !touchesWindow s.straps.engineBase addr lanes.length then .next (respond .notSelected s)
  else
    match windowReg s.straps.engineBase addr lanes.length with
    | none => .next (respond .writeError s)
    | some r => respondAfter .writeDone (writeReg (wordOfLanes lanes) s r)

/-- `MemRead(addr, n)` (20_memory.md R48 to R50): a refused read returns 0 with the error. -/
def memRead (addr n : Nat) (s : State) : Outcome :=
  if !touchesWindow s.straps.engineBase addr n then .next (respond .notSelected s)
  else
    match windowReg s.straps.engineBase addr n with
    | none => .next (respond (.readError (List.replicate n 0)) s)
    | some r => .next (respond (.readDone (lanesOfWord (readReg s r))) s)

/-- The platform's reset (70_reset_and_hazards.md R145): every engine field at its reset value, no event, the
parameters as they were (10_state.md R43). The history of the event port and the moves still to come are no engine
state and stay (log entries 1, 2). -/
def platformReset (s : State) : State :=
  { State.resetWith s.params with events := s.events, inputs := s.inputs }

/-- One move of the host or the platform (60_exceptions.md R144). -/
def takeInput (x : Input) (s : State) : Outcome :=
  match x with
  | .write addr lanes => memWrite addr lanes s
  | .read addr n => memRead addr n s
  | .reset => .next (platformReset s)

/-- The move is no longer to come. -/
def dropInput (s : State) : State := { s with inputs := s.inputs.tail }

/-- The first pending move, performed whole (20_memory.md R52, R57); with none the engine waits and nothing changes. -/
def nextInput (s : State) : Outcome :=
  match s.inputs with
  | [] => .next s
  | x :: _ => takeInput x (dropInput s)

/-! ### Placing a command -/

/-- The two accesses by which the host issues a command: OPERAND first, then COMMAND (20_memory.md R51,
30_encoding.md R81). -/
def issueCommand (base : Nat) (w : CmdWord) : List Input :=
  [ .write (base + windowOffset .operand) (lanesOfWord (w.extractLsb' 0 32))
  , .write (base + windowOffset .command) (lanesOfWord (w.extractLsb' 32 32)) ]

/-- OPERAND holds the low word and the next move is the write of the high word to COMMAND. -/
def placeCommand (w : Nat) (s : State) : State :=
  { s with
    operand := wordOfLanes ((lanesOf 8 w).take 4)
    inputs := .write (s.straps.engineBase + windowOffset .command) ((lanesOf 8 w).drop 4) :: s.inputs }

end Sys2Proof.Machine
end

