-- ==== Sys2Proof/Machine/Step.lean ====
section
/-! DEFINITION. One step: the next move of the host or the platform, performed whole (20_memory.md R52, R57). -/

namespace Sys2Proof.Machine

/-- One step of the engine. -/
def step (s : State) : Host.Outcome State Fault Refusal := nextInput s

/-- The state in which the very next step executes the command whose bits are `w` (log entry 1). -/
def State.withFetchWord (s : State) (nbits w : Nat) : State := placeCommand (w % 2 ^ nbits) s

end Sys2Proof.Machine
end

