-- ==== Sys2Proof/Machine/Assembler.lean ====
section
/-! DEFINITION. The assembler of 30_encoding.md R78 to R81: text to line, line to command, command to listing.
It is a tool beside the engine; no step uses it. Its corners are log entry 16. -/

namespace Sys2Proof.Machine

/-! ### Duty literals -/

/-- The binary32 pattern of a magnitude on the binary32 grid, in units of 2^-149 (00_scope.md R16). -/
def f32Pattern (m : Nat) : Nat := (Nat.log2 m - 23) * 2 ^ 23 + m / 2 ^ (Nat.log2 m - 23)

/-- The pattern of `digits / 10 ^ fraction`, nearest with ties to even (30_encoding.md R78). -/
def f32OfDecimal (negative : Bool) (digits fraction : Nat) : Word :=
  let magnitude :=
    match rne32 (digits * f32One) (10 ^ fraction) with
    | some m => f32Pattern m
    | none => 0x7F800000
  BitVec.ofNat 32 (magnitude + if negative then 2 ^ 31 else 0)

/-- The OPERAND word of a duty literal (30_encoding.md R78). -/
def dutyPattern : DutyLiteral → Word
  | .raw p => BitVec.ofNat 32 p
  | .decimal negative digits fraction => f32OfDecimal negative digits fraction

/-! ### Lines -/

/-- The one command of a line, pseudo-commands expanded (30_encoding.md R79, R80). -/
def expandLine : AsmLine → Instr
  | .config i t c v => .config (BitVec.ofNat 8 i) (BitVec.ofNat 8 t) (BitVec.ofNat 3 c) (BitVec.ofNat 32 v)
  | .init i => .init (BitVec.ofNat 8 i) 0
  | .deinit i => .deinit (BitVec.ofNat 8 i) 0
  | .start i => .start (BitVec.ofNat 8 i) 0
  | .stop i => .stop (BitVec.ofNat 8 i) 0
  | .setper i v => .setper (BitVec.ofNat 8 i) (BitVec.ofNat 32 v)
  | .setduty i d => .setduty (BitVec.ofNat 8 i) (dutyPattern d)
  | .setfreq i v => .setfreq (BitVec.ofNat 8 i) (BitVec.ofNat 32 v)
  | .rddesc i x => .rddesc (BitVec.ofNat 8 i) (BitVec.ofNat 32 x)
  | .rdeng x => .rdeng (BitVec.ofNat 32 x)
  | .off i => .setduty (BitVec.ofNat 8 i) 0x00000000
  | .fullon i => .setduty (BitVec.ofNat 8 i) 0x42C80000
  | .rdcount => .rdeng 0x000
  | .rdslot k => .rdeng (BitVec.ofNat 32 (0x100 + k))
  | .rdshadow t => .rdeng (BitVec.ofNat 32 (0x200 + t))

/-- Assemble a line; an operand that does not fit its field is refused (30_encoding.md R79). -/
def assembleLine (l : AsmLine) : Option Instr := if l.wellFormed then some (expandLine l) else none

/-! ### Text -/

/-- A blank between the parts of a line. -/
def isBlank (c : Char) : Bool := c == ' ' || c == '\t'

/-- Without blanks at either end. -/
def trimBlanks (l : List Char) : List Char := ((l.dropWhile isBlank).reverse.dropWhile isBlank).reverse

/-- The parts between commas. -/
def splitCommas : List Char → List (List Char)
  | [] => [[]]
  | c :: cs =>
    if c = ',' then [] :: splitCommas cs
    else
      match splitCommas cs with
      | [] => [[c]]
      | part :: parts => (c :: part) :: parts

/-- The operands of a line, given what follows its mnemonic. -/
def operandsOf (rest : List Char) : List (List Char) :=
  if trimBlanks rest = [] then [] else (splitCommas rest).map trimBlanks

/-- The value of a digit in base 10 or 16. -/
def digitOf (base : Nat) (c : Char) : Option Nat :=
  let v :=
    if '0' ≤ c ∧ c ≤ '9' then c.toNat - '0'.toNat
    else if 'a' ≤ c ∧ c ≤ 'f' then c.toNat - 'a'.toNat + 10
    else if 'A' ≤ c ∧ c ≤ 'F' then c.toNat - 'A'.toNat + 10
    else base
  if v < base then some v else none

/-- Digits after an accumulated value. -/
def digitsFrom (base : Nat) : Nat → List Char → Option Nat
  | acc, [] => some acc
  | acc, c :: cs =>
    match digitOf base c with
    | some d => digitsFrom base (acc * base + d) cs
    | none => none

/-- A number of at least one digit. -/
def numberOf (base : Nat) (l : List Char) : Option Nat := if l = [] then none else digitsFrom base 0 l

/-- A plain integer, decimal or `0x` hex (30_encoding.md R78). -/
def integerOf : List Char → Option Nat
  | '0' :: 'x' :: l => numberOf 16 l
  | l => numberOf 10 l

/-- `d<n>` (30_encoding.md R78). -/
def descOf : List Char → Option Nat
  | 'd' :: l => numberOf 10 l
  | _ => none

/-- `t<n>` (30_encoding.md R78). -/
def timerOf : List Char → Option Nat
  | 't' :: l => numberOf 10 l
  | _ => none

/-- `ch<n>` (30_encoding.md R78). -/
def channelOf : List Char → Option Nat
  | 'c' :: 'h' :: l => numberOf 10 l
  | _ => none

/-- A decimal number with an optional fraction (30_encoding.md R78). -/
def decimalOf (negative : Bool) (l : List Char) : Option DutyLiteral :=
  let whole := l.takeWhile (· ≠ '.')
  match l.dropWhile (· ≠ '.') with
  | [] => (numberOf 10 whole).map fun n => .decimal negative n 0
  | _ :: fraction =>
    if whole = [] ∨ fraction = [] then none
    else (numberOf 10 (whole ++ fraction)).map fun n => .decimal negative n fraction.length

/-- A duty literal (30_encoding.md R78). -/
def dutyLiteralOf : List Char → Option DutyLiteral
  | 'f' :: ':' :: '0' :: 'x' :: l => (numberOf 16 l).map .raw
  | '-' :: l => decimalOf true l
  | '+' :: l => decimalOf false l
  | l => decimalOf false l

/-- A line with one operand. -/
def line1 {α : Type} (a : List Char → Option α) (f : α → AsmLine) : List (List Char) → Option AsmLine
  | [x] => (a x).map f
  | _ => none

/-- A line with two operands. -/
def line2 {α β : Type} (a : List Char → Option α) (b : List Char → Option β) (f : α → β → AsmLine) :
    List (List Char) → Option AsmLine
  | [x, y] => (a x).bind fun u => (b y).map (f u)
  | _ => none

/-- The line of CONFIG, with its four operands (30_encoding.md R79). -/
def configLine : List (List Char) → Option AsmLine
  | [x, y, z, w] =>
    (descOf x).bind fun i => (timerOf y).bind fun t => (channelOf z).bind fun c => (integerOf w).map (.config i t c)
  | _ => none

/-- The line of a mnemonic in capitals and its operands (30_encoding.md R79, R80). -/
def lineOf (m : List Char) (ops : List (List Char)) : Option AsmLine :=
  if m = "CONFIG".toList then configLine ops
  else if m = "INIT".toList then line1 descOf .init ops
  else if m = "DEINIT".toList then line1 descOf .deinit ops
  else if m = "START".toList then line1 descOf .start ops
  else if m = "STOP".toList then line1 descOf .stop ops
  else if m = "SETPER".toList then line2 descOf integerOf .setper ops
  else if m = "SETDUTY".toList then line2 descOf dutyLiteralOf .setduty ops
  else if m = "SETFREQ".toList then line2 descOf integerOf .setfreq ops
  else if m = "RDDESC".toList then line2 descOf integerOf .rddesc ops
  else if m = "RDENG".toList then line1 integerOf .rdeng ops
  else if m = "OFF".toList then line1 descOf .off ops
  else if m = "FULLON".toList then line1 descOf .fullon ops
  else if m = "RDCOUNT".toList then (if ops = [] then some .rdcount else none)
  else if m = "RDSLOT".toList then line1 integerOf .rdslot ops
  else if m = "RDSHADOW".toList then line1 timerOf .rdshadow ops
  else none

/-- A line of text; the mnemonic is case-insensitive (30_encoding.md R78). -/
def parseLine (text : List Char) : Option AsmLine :=
  let l := text.dropWhile isBlank
  lineOf ((l.takeWhile fun c => !isBlank c).map Char.toUpper) (operandsOf (l.dropWhile fun c => !isBlank c))

/-- Text to command. -/
def assembleText (text : String) : Option Instr := (parseLine text.toList).bind assembleLine

/-! ### Listing -/

/-- One hex digit. -/
def hexDigit (n : Nat) : Char := "0123456789ABCDEF".toList.getD n '?'

/-- `n` hex digits, most significant first. -/
def hexDigits : Nat → Nat → List Char
  | 0, _ => []
  | n + 1, v => hexDigits n (v / 16) ++ [hexDigit (v % 16)]

/-- `HHHHHHHH:LLLLLLLL` (30_encoding.md R81). -/
def listingOf (w : CmdWord) : List Char :=
  hexDigits 8 (w.extractLsb' 32 32).toNat ++ [':'] ++ hexDigits 8 (w.extractLsb' 0 32).toNat

end Sys2Proof.Machine
end

