-- ==== Sys2Proof/Machine/Platform.lean ====
section
/-! DEFINITION. What stands behind the event port: the timers' registers (20_memory.md R56), the critical section and
the update observer (R58, R59; 60_exceptions.md R135), and the reference timer model (60_exceptions.md R138).
None of it is engine state, and the engine never reads it (10_state.md R44): it is a function of the events. -/

namespace Sys2Proof.Machine

/-- The registers of one timer that events reach (20_memory.md R45, R56). -/
structure TimerRegs where
  /-- The reload register. -/
  reload : Word
  /-- The compare registers 1..5. -/
  cmp : Vector Word 5
  /-- Whether a channel 1..5 generates. -/
  generating : Vector Bool 5
  deriving DecidableEq, Repr, Inhabited

/-- The timers with the platform's interrupt side. -/
structure Platform where
  /-- The timers, by index. -/
  timers : List TimerRegs
  /-- How many events have been performed. -/
  performed : Nat
  /-- Between a `CS_ENTER` and its `CS_EXIT` (20_memory.md R59). -/
  inSection : Bool
  /-- Timers whose update interrupt waits for `CS_EXIT` (60_exceptions.md R135). -/
  pending : List TimerIndex
  /-- Timers whose update interrupt has been delivered, oldest first. -/
  delivered : List TimerIndex
  deriving DecidableEq, Repr

end Sys2Proof.Machine

namespace Sys2Proof.Config

/-- What a hook event does to its timer's registers: "any value" (93_implementation_defined.md I3, I7). A free value:
nothing is known of it. It may differ at every event, counted by the first argument (log entry 8). -/
opaque hookEffect : Nat → Event → Sys2Proof.Machine.TimerRegs → Sys2Proof.Machine.TimerRegs

end Sys2Proof.Config

namespace Sys2Proof.Machine

/-- The effect of the init and deinit hooks on a timer's registers, as an argument of the platform. -/
abbrev HookEffect := Nat → Event → TimerRegs → TimerRegs

/-! ### Events at the timers -/

/-- `trunc_TIMER_WIDTH` (20_memory.md R56). -/
def truncTimer (width : Nat) (v : Word) : Word := BitVec.ofNat 32 (v.toNat % 2 ^ width)

/-- Compare register `ch` of a timer; there is none for a channel outside 1..5 (20_memory.md R45). -/
def readCmp (ch : Channel) (R : TimerRegs) : Option Word :=
  if ch = 0 then none else R.cmp[ch.toNat - 1]?

/-- Write compare register `ch`. -/
def writeCmp (ch : Channel) (c : Word) (R : TimerRegs) : TimerRegs :=
  if ch = 0 then R else { R with cmp := R.cmp.setIfInBounds (ch.toNat - 1) c }

/-- Start or stop generation on channel `ch`. -/
def writeGenerating (ch : Channel) (g : Bool) (R : TimerRegs) : TimerRegs :=
  if ch = 0 then R else { R with generating := R.generating.setIfInBounds (ch.toNat - 1) g }

/-- What an event does to the timers' registers (20_memory.md R56); `n` events came before it. -/
def performAtTimers (hook : HookEffect) (width n : Nat) (e : Event) (T : List TimerRegs) : List TimerRegs :=
  match e with
  | .hookInit t _ => T.modify t.toNat (hook n e)
  | .hookDeinit t _ => T.modify t.toNat (hook n e)
  | .pwmStart t ch => T.modify t.toNat (writeGenerating ch true)
  | .pwmStop t ch => T.modify t.toNat (writeGenerating ch false)
  | .wrReload t r => T.modify t.toNat fun R => { R with reload := truncTimer width r }
  | .wrCompare t ch c => T.modify t.toNat (writeCmp ch (truncTimer width c))
  | .csEnter => T
  | .csExit => T
  | .barrier => T

/-- Perform one event. `CS_EXIT` delivers the update interrupts held back since `CS_ENTER` (60_exceptions.md R135). -/
def perform (hook : HookEffect) (width : Nat) (e : Event) (P : Platform) : Platform :=
  let P1 := { P with
    timers := performAtTimers hook width P.performed e P.timers
    performed := P.performed + 1 }
  match e with
  | .csEnter => { P1 with inSection := true }
  | .csExit => { P1 with inSection := false, pending := [], delivered := P1.delivered ++ P1.pending }
  | _ => P1

/-- Perform events in emission order (20_memory.md R57). -/
def performAll (hook : HookEffect) (width : Nat) (es : List Event) (P : Platform) : Platform :=
  es.foldl (fun Q e => perform hook width e Q) P

/-- Timer `t`'s update occurs: its interrupt is delivered, or waits if a critical section is open
(60_exceptions.md R135). -/
def timerUpdate (t : TimerIndex) (P : Platform) : Platform :=
  if P.inSection then { P with pending := P.pending ++ [t] } else { P with delivered := P.delivered ++ [t] }

/-! ### The update observer -/

/-- What the update observer may see of a platform: its timers, or nothing while a critical section is open
(20_memory.md R58). -/
def visible (P : Platform) : List (List TimerRegs) := if P.inSection then [] else [P.timers]

/-- Every view of the timers the update observer may have while events are performed: before the first, between any
two, and after the last (20_memory.md R58). -/
def observerViews (hook : HookEffect) (width : Nat) : List Event → Platform → List (List TimerRegs)
  | [], P => visible P
  | e :: es, P => visible P ++ observerViews hook width es (perform hook width e P)

/-- The events a step put on the event port. -/
def newEvents (s s' : State) : List Event := s'.events.drop s.events.length

/-- The platform of the model: the hooks' effect is the free value. -/
def performStep (s s' : State) (P : Platform) : Platform :=
  performAll Config.hookEffect s.straps.timerWidth (newEvents s s') P

/-! ### The reference timer model, for tests only (60_exceptions.md R138) -/

/-- The counter's next count and whether an update occurs; the model says nothing of a count above the reload
(log entry 10). -/
def refTick (reload c : Nat) : Option (Nat × Bool) :=
  if c < reload then some (c + 1, false) else if c = reload then some (0, true) else none

/-- A channel's output: high while it generates and the count is below its compare value. -/
def refOutput (generating : Bool) (cmp c : Nat) : Bool := generating && decide (c < cmp)

/-- For how many counts of one period `0 .. reload` a generating channel is high. -/
def refHighCounts (reload cmp : Nat) : Nat := (List.range (reload + 1)).countP (refOutput true cmp)

end Sys2Proof.Machine
end

