-- ==== Sys2Proof/Safety.lean ====
section
/-! DEFINITION. What a good state and a safe use of the engine are: the invariants of 10_state.md R29 and R31, the
consistency of compares and reloads (42_period_duty.md R105), the critical sections (20_memory.md R59) and the host's
duties (70_reset_and_hazards.md R151, R154). -/

namespace Sys2Proof.Machine

/-! ### Invariants -/

/-- 10_state.md R29 for one slot of an engine with `nTimer` timers. -/
abbrev Desc.Good (nTimer : Nat) (d : Desc) : Prop :=
  d.duty.toNat ≤ 1000 ∧
  (d.cfg = true → 1 ≤ d.ch.toNat ∧ d.ch.toNat ≤ Config.nCh ∧ d.tmr.toNat < nTimer) ∧
  (d.cfg = false → d = Desc.reset)

/-- 10_state.md R29: every slot is good. -/
abbrev State.DescsGood (s : State) : Prop := ∀ d ∈ s.desc, d.Good s.nTimer

/-- 10_state.md R31: no index twice, at most 16, every registered index names a configured slot, and the positions
from `REG.count` on hold 0. -/
abbrev State.RegistryGood (s : State) : Prop :=
  (regList s).Nodup ∧ s.regCount.toNat ≤ Config.regCap ∧
  (∀ j ∈ regList s, present s j = true) ∧
  (∀ x ∈ s.regSlot.toList.drop s.regCount.toNat, x = 0)

/-- 20_memory.md R45, R55: an event addresses an existing timer and a compare register 1..5. -/
def eventGood (nTimer : Nat) : Event → Bool
  | .hookInit t ch | .hookDeinit t ch | .pwmStart t ch | .pwmStop t ch | .wrCompare t ch _ =>
    decide (t.toNat < nTimer ∧ 1 ≤ ch.toNat ∧ ch.toNat ≤ Config.nCh)
  | .wrReload t _ => decide (t.toNat < nTimer)
  | .csEnter | .csExit | .barrier => true

/-- Every event so far addresses an existing register (20_memory.md R45). -/
abbrev State.EventsGood (s : State) : Prop := ∀ e ∈ s.events, eventGood s.nTimer e = true

/-- The invariant of reachable states: the parameters are legal (00_scope.md R9) and 10_state.md R29, R31 hold. -/
abbrev State.Inv (s : State) : Prop :=
  s.params.Legal ∧ s.DescsGood ∧ s.RegistryGood ∧ s.EventsGood

/-! ### Critical sections -/

/-- Critical sections open and close in turn and never nest, starting outside (`false`) or inside (`true`) one and
ending outside (20_memory.md R59). -/
def sectionsClosed : Bool → List Event → Bool
  | inside, [] => !inside
  | inside, .csEnter :: es => !inside && sectionsClosed true es
  | inside, .csExit :: es => inside && sectionsClosed false es
  | inside, _ :: es => sectionsClosed inside es

/-! ### Consistency of the timers with the engine -/

/-- A slot's timer and compare register hold what its cached duty and its timer's reload shadow ask for
(42_period_duty.md R105; the §3 invariant quoted in 41_lifecycle.md R96). -/
abbrev SlotConsistent (s : State) (T : List TimerRegs) (j : DescIndex) : Prop :=
  ∃ R, T[(descAt s j).tmr.toNat]? = some R ∧
    R.reload = truncTimer s.straps.timerWidth (shadowAt s (descAt s j).tmr) ∧
    readCmp (descAt s j).ch R =
      some (truncTimer s.straps.timerWidth
        (compareValue (descAt s j).duty.toNat (shadowAt s (descAt s j).tmr)))

/-- Every registered ACTIVE descriptor is consistent with its timer. -/
abbrev Consistent (s : State) (T : List TimerRegs) : Prop :=
  ∀ j ∈ regList s, (descAt s j).state = .active → SlotConsistent s T j

/-- No two configured slots drive the same compare register: what the host keeps so that 70_reset_and_hazards.md R152
does not arise. -/
abbrev ChannelsDistinct (s : State) : Prop :=
  ∀ i j : DescIndex, present s i = true → present s j = true →
    (descAt s i).tmr = (descAt s j).tmr → (descAt s i).ch = (descAt s j).ch → i = j

/-! ### The host's duties -/

/-- The duty of 70_reset_and_hazards.md R151 and R154 for a period `v` at clock scale `cs`: neither the reload nor the
full-on compare wraps, in the engine or in the timer. -/
abbrev ReloadFits (width v cs : Nat) : Prop :=
  2 + v * cs + 100 < 2 ^ 32 ∧ 2 + v * cs + 100 < 2 ^ width

end Sys2Proof.Machine
end

