-- ==== Sys2Proof/Certificates/Slice0/Obligations.lean ====
section
/-! DEFINITION. The statements for the provers, from the numbered rules of the spec. -/

namespace Sys2Proof.Claims

open Sys2Proof Sys2Proof.Machine

/-! ### Words the statements share -/

/-- The state a command leaves when it writes nothing but STATUS (60_exceptions.md R128). -/
def statusOnly (s : State) (c : Code) (op : BitVec 4) : State := { s with code := c, lastOp := op }

/-- The events of `ApplyReload(t, r)` in state `s` (42_period_duty.md R105). -/
def fanOut (s : State) (t : TimerIndex) (r : Word) : List Event :=
  [.csEnter, .wrReload t r] ++
  (siblings s t).map (fun j => .wrCompare t (descAt s j).ch (compareValue (descAt s j).duty.toNat r)) ++
  [.csExit, .barrier]

/-- The sign of a pattern as a factor (00_scope.md R16). -/
def f32SignFactor (f : Word) : ℚ := if f.getLsbD 31 then -1 else 1

/-- The binary32 value of a finite pattern as a rational, by the two finite cases of 00_scope.md R16. -/
def f32Value (f : Word) : ℚ :=
  f32SignFactor f *
  (if f.toNat / 2 ^ 23 % 2 ^ 8 = 0 then ((f.toNat % 2 ^ 23 : ℕ) : ℚ) * (2 : ℚ) ^ (-149 : ℤ)
   else ((2 ^ 23 + f.toNat % 2 ^ 23 : ℕ) : ℚ) * (2 : ℚ) ^ (((f.toNat / 2 ^ 23 % 2 ^ 8 : ℕ) : ℤ) - 150))

/-- Neither an infinity nor a NaN (00_scope.md R16). -/
def F32Finite (f : Word) : Prop := f.toNat / 2 ^ 23 % 2 ^ 8 ≠ 255

/-- `p` is `round_half_away(y)`: nearest to `y`, and farther from zero on a tie (00_scope.md R17). -/
def RoundsHalfAway (y : ℚ) (p : ℤ) : Prop := |(p : ℚ) - y| ≤ 1 / 2 ∧ (|(p : ℚ) - y| = 1 / 2 → |y| < |(p : ℚ)|)

/-- A magnitude that binary32 holds, in units of 2^-149: a significand below 2^24 at one of the 254 scales. -/
def OnF32Grid (y : ℕ) : Prop := ∃ m k : ℕ, m < 2 ^ 24 ∧ k ≤ 253 ∧ y = m * 2 ^ k

/-- The distance of two magnitudes. -/
def gap (a b : ℕ) : ℕ := (a - b) + (b - a)

/-- The word of command `i` carries OP `op`, descriptor `d`, operand `v`, and 0 in every other field
(30_encoding.md R67): the encoding line of the command rules with TMR = CH = 0. -/
def CarriesPlain (i : Instr) (op : BitVec 4) (d : DescIndex) (v : Word) : Prop :=
  fieldsOf (encode i) = { op := op, rsv1 := 0, desc := d, tmr := 0, rsv2 := 0, ch := 0, operand := v }

/-- Four byte lanes hold a register value: the lane at `+0` carries bits 7:0, the one at `+3` bits 31:24
(20_memory.md R47). -/
def LanesHold (lanes : List Byte) (v : Word) : Prop :=
  ∃ b0 b1 b2 b3 : Byte, lanes = [b0, b1, b2, b3] ∧
    v.toNat = b0.toNat + 2 ^ 8 * b1.toNat + 2 ^ 16 * b2.toNat + 2 ^ 24 * b3.toNat

/-- The condition of INVALID_ARGUMENT (60_exceptions.md R125) for each command: an absent descriptor; for CONFIG a bad
index, timer or channel or an ACTIVE slot (40_registry.md R83); for RDDESC and RDENG a bad index or selector
(43_readback.md R119, R121). -/
def BadArgument : Instr → State → Prop
  | .config i t ch _, s =>
    s.nDesc ≤ i.toNat ∨ s.nTimer ≤ t.toNat ∨ ch.toNat < 1 ∨ 5 < ch.toNat ∨ (descAt s i).state = .active
  | .init i _, s | .deinit i _, s | .start i _, s | .stop i _, s | .setper i _, s | .setduty i _, s
  | .setfreq i _, s => present s i = false
  | .rddesc i x, s => s.nDesc ≤ i.toNat ∨ 4 < x.toNat
  | .rdeng x, s =>
    x.toNat ≠ 0 ∧ ¬ (0x100 ≤ x.toNat ∧ x.toNat ≤ 0x10F) ∧ ¬ (0x200 ≤ x.toNat ∧ x.toNat < 0x200 + s.nTimer)

/-- The assembler gives line `l` a command of the shape `is` where its operands fit their fields, and refuses it where
they do not (30_encoding.md R79). -/
def Assembles (l : AsmLine) (fits : Prop) (is : Instr → Prop) : Prop :=
  (fits → ∃ x, assembleLine l = some x ∧ is x) ∧ (¬ fits → assembleLine l = none)

/-- The reload and compare registers of a timer: what the update observer must not see torn (20_memory.md R59). -/
def registersOf (R : TimerRegs) : Word × Vector Word 5 := (R.reload, R.cmp)

/-- The descriptor a command names; RDENG names none (30_encoding.md R70). -/
def descOf? : Instr → Option DescIndex
  | .config i _ _ _ | .init i _ | .deinit i _ | .start i _ | .stop i _ | .setper i _ | .setduty i _ | .setfreq i _
  | .rddesc i _ => some i
  | .rdeng _ => none

/-- INIT and DEINIT, the commands that call a hook (20_memory.md R55). -/
def callsHook : Instr → Bool
  | .init _ _ | .deinit _ _ => true
  | _ => false

/-- The hooks of INIT and DEINIT leave reload and compare registers alone: a premise on the platform that the spec does
not promise (93_implementation_defined.md I3; log entry 8). -/
def HooksKeepRegisters (hook : HookEffect) (i : Instr) : Prop :=
  callsHook i = true → ∀ n e R, registersOf (hook n e R) = registersOf R

/-- START, SETPER and SETFREQ, the commands that write a reload (20_memory.md R60). -/
def writesReload : Instr → Bool
  | .start _ _ | .setper _ _ | .setfreq _ _ => true
  | _ => false

/-- The timer an event addresses (20_memory.md R55). -/
def timerOf? : Event → Option TimerIndex
  | .hookInit t _ | .hookDeinit t _ | .pwmStart t _ | .pwmStop t _ | .wrReload t _ | .wrCompare t _ _ => some t
  | .csEnter | .csExit | .barrier => none

/-- The reload an event writes to timer `t`, if it writes one (20_memory.md R55). -/
def reloadTo? (t : TimerIndex) : Event → Option Word
  | .wrReload u r => if u = t then some r else none
  | .hookInit _ _ | .hookDeinit _ _ | .pwmStart _ _ | .pwmStop _ _ | .wrCompare _ _ _ | .csEnter | .csExit
  | .barrier => none

/-- The reload of the last `WR_RELOAD` to timer `t` among events (10_state.md R32). -/
def lastReload (t : TimerIndex) (es : List Event) : Option Word := (es.filterMap (reloadTo? t)).getLast?

/-- How many events a command emits when it ends with OK, `n` being the number of siblings on its timer
(70_reset_and_hazards.md R162). -/
def okEvents (n : ℕ) : Instr → ℕ
  | .config _ _ _ _ | .rddesc _ _ | .rdeng _ => 0
  | .init _ _ | .deinit _ _ | .stop _ _ => 1
  | .start _ _ => 6 + n
  | .setper _ _ | .setfreq _ _ => 4 + n
  | .setduty _ _ => 2

/-- What a readback command answers: its code, and RDATA where the code is OK (10_state.md R36). -/
def answerOf (i : Instr) (s : State) : Option (Code × Option Word) :=
  match exec i s with
  | .next t => some (t.code, if t.code = .ok then some t.rdata else none)
  | .fault _ => none
  | .refused _ => none

end Sys2Proof.Claims

open Sys2Proof Sys2Proof.Machine Sys2Proof.Claims

/-! ### Encoding -/

/-- Decoding an encoded command gives it back, and only one word encodes a command: no bit of a legal word is
dropped (30_encoding.md R67, R72). -/
def Obligations.DecodeAndEncodeAgree : Prop :=
  (∀ i : Instr, decode (encode i) = .ok i) ∧ (∀ (w : CmdWord) (i : Instr), decode w = .ok i → encode i = w)

/-- 30_encoding.md R77: every word is exactly one of a command, when it meets R74, or an ILLEGAL_COMMAND; and for a
legal word the opcode table's row of its command gives the mask and match it meets. -/
def Obligations.EveryWordIsCommandOrIllegal : Prop :=
  (∀ w : CmdWord, (∃ i, decode w = .ok i) ↔ (fieldsOf w).WellFormed) ∧
  (∀ (w : CmdWord) (s : State), ¬ (fieldsOf w).WellFormed →
    execute w s = .next (statusOnly s .illegalCommand (w.extractLsb' 60 4))) ∧
  (∀ (w : CmdWord) (i : Instr), decode w = .ok i → ∃ r, rowOf i = some r ∧ w &&& r.2 = r.1) ∧
  (∀ r ∈ opcodeTable, ∀ w : CmdWord, w &&& r.2 = r.1 → ∃ i, decode w = .ok i ∧ rowOf i = some r)

/-- Words written out from 30_encoding.md R67 and R72 decode to the commands they stand for. -/
def Obligations.WrittenWordsDecode : Prop :=
  decodeTableWord 64 0x1003010200000048 = some (.config 3 1 2 72) ∧
  decodeTableWord 64 0x40100000DEADBEEF = some (.start 16 0xDEADBEEF) ∧
  decodeTableWord 64 0x7001000042480000 = some (.setduty 1 0x42480000) ∧
  decodeTableWord 64 0xA000000000000203 = some (.rdeng 0x203)

/-! ### The step and the window -/

/-- A step whose next move is the host's write of `h` to COMMAND, on little-endian lanes, stores `h`, runs the decoded
command, takes the move off the list and answers the bus (10_state.md R34, 20_memory.md R47, R50). -/
def Obligations.StepRunsDecodedCommand : Prop :=
  ∀ (s : State) (lanes : List Byte) (h : Word) (rest : List Input) (i : Instr),
    s.inputs = .write (s.straps.engineBase + 4) lanes :: rest → LanesHold lanes h →
    decode (commandWord h s.operand) = .ok i →
    ∃ t, exec i { s with inputs := rest, command := h } = .next t ∧
      step s = .next { t with response := some .writeDone }

/-- 30_encoding.md R76: an illegal word writes CODE and LAST_OP and nothing else; COMMAND holds the written value, and
the step answers a next state, so the engine goes on. -/
def Obligations.StepOfIllegalCommand : Prop :=
  ∀ (s : State) (lanes : List Byte) (h : Word) (rest : List Input),
    s.inputs = .write (s.straps.engineBase + 4) lanes :: rest → LanesHold lanes h →
    ¬ (fieldsOf (commandWord h s.operand)).WellFormed →
    step s = .next { s with
      inputs := rest, command := h, code := .illegalCommand, lastOp := h.extractLsb' 28 4,
      response := some .writeDone }

/-- 20_memory.md R50, with the byte lanes of R47 and the value of STATUS spelled out as numbers: the accepted accesses at
the four offsets other than a COMMAND write. Reads change nothing, and writes to STATUS and RDATA are ignored. -/
def Obligations.WindowReadsAndWrites : Prop :=
  (∀ (s : State) (lanes : List Byte) (v : Word), LanesHold lanes v →
    memWrite s.straps.engineBase lanes s = .next { s with operand := v, response := some .writeDone } ∧
    memWrite (s.straps.engineBase + 0x8) lanes s = .next { s with response := some .writeDone } ∧
    memWrite (s.straps.engineBase + 0xC) lanes s = .next { s with response := some .writeDone }) ∧
  (∀ (s : State) (off : ℕ) (v : Word),
    (off = 0x0 ∧ v = s.operand) ∨ (off = 0x4 ∧ v = s.command) ∨
      (off = 0x8 ∧ v.toNat = s.regCount.toNat * 2 ^ 8 + s.lastOp.toNat * 2 ^ 4 + (codeBits s.code).toNat) ∨
      (off = 0xC ∧ v = s.rdata) →
    ∃ lanes, LanesHold lanes v ∧
      memRead (s.straps.engineBase + off) 4 s = .next { s with response := some (.readDone lanes) })

/-- 20_memory.md R48: an access to the window that is not 4 bytes at one of the four offsets gets a bus error and does
nothing; a refused read returns 0. That an access which only partly touches the window is one of them, and that the 0
has as many lanes as were read, is the model's reading (log entry 4). -/
def Obligations.OtherAccessesAreBusErrors : Prop :=
  ∀ (s : State) (addr n : ℕ) (lanes : List Byte), lanes.length = n →
    addr < s.straps.engineBase + 16 → s.straps.engineBase < addr + n →
    (n ≠ 4 ∨ ¬ (addr = s.straps.engineBase ∨ addr = s.straps.engineBase + 0x4 ∨
      addr = s.straps.engineBase + 0x8 ∨ addr = s.straps.engineBase + 0xC)) →
    memWrite addr lanes s = .next { s with response := some .writeError } ∧
    memRead addr n s = .next { s with response := some (.readError (List.replicate n 0)) }

/-- The two host writes of a command, OPERAND then COMMAND, each on little-endian lanes, run the command in two steps with
OPERAND the low word (20_memory.md R47, R51, 30_encoding.md R81); the model's `issueCommand` is such a pair. -/
def Obligations.IssuedCommandRuns : Prop :=
  (∀ (s : State) (w : CmdWord) (low high : List Byte) (rest : List Input) (i : Instr),
    s.inputs = .write s.straps.engineBase low :: .write (s.straps.engineBase + 4) high :: rest →
    LanesHold low (w.extractLsb' 0 32) → LanesHold high (w.extractLsb' 32 32) → decode w = .ok i →
    ∃ s1 t, step s = .next s1 ∧
      exec i { s with
        operand := w.extractLsb' 0 32, command := w.extractLsb' 32 32, inputs := rest,
        response := some .writeDone } = .next t ∧
      step s1 = .next { t with response := some .writeDone }) ∧
  (∀ (base : ℕ) (w : CmdWord), ∃ low high,
    issueCommand base w = [.write base low, .write (base + 4) high] ∧
    LanesHold low (w.extractLsb' 0 32) ∧ LanesHold high (w.extractLsb' 32 32))

/-- The two choices of the model about moves that are no access to the engine: with no move to come a step changes
nothing (log entry 1), and an access that touches no byte of the window is not answered by the engine and changes
nothing in it (log entry 4). -/
def Obligations.IdleAndUnselectedSteps : Prop :=
  (∀ s : State, s.inputs = [] → step s = .next s) ∧
  (∀ (s : State) (addr : ℕ) (lanes : List Byte),
    (s.straps.engineBase + 16 ≤ addr ∨ addr + lanes.length ≤ s.straps.engineBase) →
    memWrite addr lanes s = .next { s with response := some .notSelected } ∧
    memRead addr lanes.length s = .next { s with response := some .notSelected })

/-- 60_exceptions.md R132: no step faults or is refused, and no command stops the engine. -/
def Obligations.EveryStepCompletes : Prop :=
  (∀ s : State, ∃ t, step s = .next t) ∧ (∀ (i : Instr) (s : State), ∃ t, exec i s = .next t)

/-! ### Reset, parameters and invariants -/

/-- 10_state.md R42: the reset value of every piece of engine state, for every choice of the parameters. -/
def Obligations.ResetValues : Prop :=
  ∀ p : Config.Params,
    (∀ d ∈ (State.resetWith p).desc,
      d = { ch := 0, tmr := 0, cfg := false, cs := 0, period := 0, duty := 0, state := .inactive }) ∧
    (State.resetWith p).nDesc = p.nDesc ∧ (State.resetWith p).nTimer = p.nTimer ∧
    regList (State.resetWith p) = [] ∧ (State.resetWith p).regCount = 0 ∧
    (∀ x ∈ (State.resetWith p).regSlot.toList, x = 0) ∧
    (∀ x ∈ (State.resetWith p).shadow, x = 0) ∧
    (State.resetWith p).operand = 0 ∧ (State.resetWith p).command = 0 ∧
    statusWord (State.resetWith p) = 0 ∧ (State.resetWith p).rdata = 0

/-- 70_reset_and_hazards.md R145: the platform's reset sets every piece of engine state to its reset value and emits no
event; the parameters stay. That the history of the event port and the moves still to come survive it is the model's
choice (log entries 1, 2). -/
def Obligations.PlatformResetStep : Prop :=
  ∀ (s : State) (rest : List Input), s.inputs = .reset :: rest →
    ∃ t, step s = .next t ∧ t = { State.resetWith s.params with events := s.events, inputs := rest } ∧
      t.params = s.params

/-- 10_state.md R29 and R31 hold right after reset, for every legal choice of the parameters. -/
def Obligations.InvHoldsAtReset : Prop :=
  State.reset.Inv ∧ ∀ p : Config.Params, p.Legal → (State.resetWith p).Inv

/-- 10_state.md R29 and R31: every step keeps the invariants of the descriptors and of the registry, the ranges of the
parameters, and that every event addresses an existing timer register. -/
def Obligations.EveryStepKeepsInv : Prop :=
  ∀ s t : State, s.Inv → step s = .next t → t.Inv

/-- 10_state.md R43: no step changes a parameter. -/
def Obligations.StepsKeepParameters : Prop :=
  ∀ s t : State, step s = .next t → t.params = s.params

/-! ### Datapath -/

/-- 42_period_duty.md R99: the three branches of `Compare`; for 1..999 the result never wraps. -/
def Obligations.CompareFormula : Prop :=
  ∀ (d : ℕ) (r : Word),
    (compareValue 0 r).toNat = 0 ∧
    (compareValue 1000 r).toNat = (r.toNat + 100) % 2 ^ 32 ∧
    (1 ≤ d → d ≤ 999 →
      (compareValue d r).toNat = 1 + d * r.toNat / 1000 ∧ (compareValue d r).toNat ≤ 4290672328)

/-- 42_period_duty.md R104 (a) to (d). -/
def Obligations.ComparePropertiesHold : Prop :=
  (∀ (d d' : ℕ) (r : Word), 0 < r.toNat → r.toNat < 2 ^ 32 - 100 → d ≤ d' → d' ≤ 1000 →
    (compareValue d r).toNat ≤ (compareValue d' r).toNat) ∧
  (∀ r : Word, 2 ^ 32 - 100 ≤ r.toNat → (compareValue 1000 r).toNat < (compareValue 999 r).toNat) ∧
  (∀ d : ℕ, 1 ≤ d → d ≤ 999 → compareValue d 0 = 1) ∧ compareValue 1000 0 = 100 ∧
  (∀ v cs : ℕ, 2 + v * cs + 100 < 2 ^ 32 →
    (compareValue 1000 (reloadValue v cs)).toNat = 2 + v * cs + 100)

/-- 42_period_duty.md R100: `Reload`, its two special cases, and when the sum wraps. -/
def Obligations.ReloadFormula : Prop :=
  ∀ v cs : ℕ, v < 2 ^ 32 → cs < 2 ^ 32 →
    (reloadValue v cs).toNat = (2 + v * cs) % 2 ^ 32 ∧
    reloadValue v 0 = 2 ∧ reloadValue 0 cs = 2 ∧
    ((reloadValue v cs).toNat = 2 + v * cs ↔ v * cs < 2 ^ 32 - 2)

/-- 42_period_duty.md R103 and the corner cases of R117: the period of a frequency in deci-Hz, the same for
`10q .. 10q+9`, at most 100000, 0 from 1000010 on, and a reload that wraps only for a clock scale from 42950 on. -/
def Obligations.FrequencyToPeriod : Prop :=
  (∀ v : ℕ, v < 10 → freqToPeriod v = none) ∧
  (∀ q r : ℕ, 1 ≤ q → r ≤ 9 → freqToPeriod (10 * q + r) = some (100000 / q)) ∧
  (∀ v p : ℕ, freqToPeriod v = some p → p ≤ 100000 ∧ (1000010 ≤ v → p = 0) ∧
    (∀ cs : ℕ, cs < 42950 → (reloadValue p cs).toNat = 2 + p * cs)) ∧
  freqToPeriod 10 = some 100000 ∧ 2 ^ 32 ≤ 2 + 100000 * 42950

/-- 42_period_duty.md R101 under EXACT, by 00_scope.md R16 and R17: the permille of a finite pattern is
`round_half_away` of ten times its exact value; an infinity or a NaN has none. -/
def Obligations.ExactDutyIsNearestPermille : Prop :=
  ∀ f : Word,
    (¬ F32Finite f → dutyConv .exact f = none) ∧
    (F32Finite f → ∃ p : ℤ, dutyConv .exact f = some p ∧ RoundsHalfAway (10 * f32Value f) p)

/-- 42_period_duty.md R101 and R102 under BINARY32: the product's magnitude, in units of 2^-149, is rounded by `rne32`;
there is no permille exactly when that overflows or the pattern is not finite, and else it is `round_half_away` of the
rounded product with the sign put back. `M` is the operand's magnitude in those units. -/
def Obligations.Binary32DutyRoundsTwice : Prop :=
  (∀ f : Word, ¬ F32Finite f → dutyConv .binary32 f = none) ∧
  (∀ f : Word, F32Finite f → ∃ M : ℕ, (M : ℚ) = |f32Value f| * 2 ^ 149 ∧
    (dutyConv .binary32 f = none ↔ rne32 (10 * M) 1 = none) ∧
    ∀ y : ℕ, rne32 (10 * M) 1 = some y →
      ∃ p : ℤ, dutyConv .binary32 f = some p ∧ RoundsHalfAway (f32SignFactor f * ((y : ℚ) / 2 ^ 149)) p) ∧
  dutyConv .exact 0x3EB33333 = some 3 ∧ dutyConv .binary32 0x3EB33333 = some 4

/-- 42_period_duty.md R101, `rne32` on a magnitude `x / den` in units of 2^-149: below the overflow threshold it answers
the nearest binary32 magnitude, on a tie between two neighbours the even one; from the threshold on it answers none. The
distances are those from `x / den`, multiplied by `den`. -/
def Obligations.Rne32IsNearestEven : Prop :=
  ∀ x den : ℕ, 0 < den →
    (rne32 x den = none ↔ (2 ^ 128 - 2 ^ 103) * 2 ^ 149 * den ≤ x) ∧
    (∀ y, rne32 x den = some y → OnF32Grid y ∧
      (∀ z, OnF32Grid z → gap x (y * den) ≤ gap x (z * den)) ∧
      (∀ z, OnF32Grid z → z ≠ y → gap x (y * den) = gap x (z * den) → y % (2 * gap y z) = 0))

/-- 42_period_duty.md R115: the six ranges of operand patterns under EXACT, and that SETDUTY of a present descriptor
reports OUT_OF_RANGE on exactly the ranges the table refuses. -/
def Obligations.DutyOperandRanges : Prop :=
  ∀ f : Word,
    (f.toNat ≤ 0x42C81999 → ∃ p, dutyConv .exact f = some p ∧ 0 ≤ p ∧ p ≤ 1000) ∧
    (0x42C8199A ≤ f.toNat → f.toNat ≤ 0x7F7FFFFF → ∃ p, dutyConv .exact f = some p ∧ 1000 < p) ∧
    (0x7F800000 ≤ f.toNat → f.toNat ≤ 0x7FFFFFFF → dutyConv .exact f = none) ∧
    (0x80000000 ≤ f.toNat → f.toNat ≤ 0xBD4CCCCC → dutyConv .exact f = some 0) ∧
    (0xBD4CCCCD ≤ f.toNat → f.toNat ≤ 0xFF7FFFFF → ∃ p, dutyConv .exact f = some p ∧ p < 0) ∧
    (0xFF800000 ≤ f.toNat → dutyConv .exact f = none) ∧
    (∀ (s : State) (i : DescIndex), present s i = true → s.straps.dutyMul = .exact →
      ∃ t, exec (.setduty i f) s = .next t ∧
        (t.code = .outOfRange ↔
          ¬ (f.toNat ≤ 0x42C81999 ∨ (0x80000000 ≤ f.toNat ∧ f.toNat ≤ 0xBD4CCCCC))))

/-! ### Commands -/

/-- 40_registry.md R83: CONFIG refuses a bad index, timer, channel or an ACTIVE slot, and else writes exactly `ch`,
`tmr`, `cs` and `cfg` of its slot; no event. -/
def Obligations.ConfigRule : Prop :=
  ∀ (s : State) (i : DescIndex) (t : TimerIndex) (ch : Channel) (v : Word),
    fieldsOf (encode (.config i t ch v)) =
      { op := 0x1, rsv1 := 0, desc := i, tmr := t, rsv2 := 0, ch := ch, operand := v } ∧
    ((s.nDesc ≤ i.toNat ∨ s.nTimer ≤ t.toNat ∨ ch.toNat < 1 ∨ 5 < ch.toNat ∨ (descAt s i).state = .active) →
      exec (.config i t ch v) s = .next (statusOnly s .invalidArgument 0x1)) ∧
    (i.toNat < s.nDesc → t.toNat < s.nTimer → 1 ≤ ch.toNat → ch.toNat ≤ 5 → (descAt s i).state = .inactive →
      exec (.config i t ch v) s = .next { s with
        desc := s.desc.modify i.toNat fun d => { d with ch := ch, tmr := t, cs := v, cfg := true }
        code := .ok, lastOp := 0x1 })

/-- 41_lifecycle.md R91: INIT's two errors, and its effect: the hook, the zeroed cache, INACTIVE, and the registry with
the descriptor appended if it was not in it. -/
def Obligations.InitRule : Prop :=
  ∀ (s : State) (i : DescIndex) (v : Word),
    CarriesPlain (.init i v) 0x2 i v ∧
    (present s i = false → exec (.init i v) s = .next (statusOnly s .invalidArgument 0x2)) ∧
    (present s i = true → i ∉ regList s → s.regCount.toNat = 16 →
      exec (.init i v) s = .next (statusOnly s .capacityExceeded 0x2)) ∧
    (present s i = true → (i ∈ regList s ∨ s.regCount.toNat < 16) →
      ∃ (slots : Vector DescIndex 16) (n : BitVec 5),
        exec (.init i v) s = .next { s with
          desc := s.desc.modify i.toNat fun d => { d with period := 0, duty := 0, state := .inactive }
          events := s.events ++ [.hookInit (descAt s i).tmr (descAt s i).ch]
          regSlot := slots, regCount := n, code := .ok, lastOp := 0x2 } ∧
        (i ∈ regList s → slots = s.regSlot ∧ n = s.regCount) ∧
        (i ∉ regList s → n.toNat = s.regCount.toNat + 1 ∧
          slots.toList.take n.toNat = regList s ++ [i] ∧
          slots.toList.drop n.toNat = s.regSlot.toList.drop n.toNat))

/-- 40_registry.md R86: INIT reports CAPACITY_EXCEEDED (code 4) exactly when the count is 16 and the present descriptor
is not registered, and then nothing but STATUS is written; a registered descriptor never gets it. -/
def Obligations.CapacityExceededExactlyWhenFull : Prop :=
  codeBits .capacityExceeded = 4 ∧
  ∀ (s t : State) (i : DescIndex) (v : Word), exec (.init i v) s = .next t →
    (t.code = .capacityExceeded ↔ present s i = true ∧ s.regCount.toNat = 16 ∧ i ∉ regList s) ∧
    (t.code = .capacityExceeded → t = statusOnly s .capacityExceeded 0x2)

/-- 40_registry.md R87: INIT of a registered descriptor leaves the registry, and so the fan-out order, as it was; and
INIT twice registers a descriptor exactly once. -/
def Obligations.InitTwiceRegistersOnce : Prop :=
  ∀ (s : State) (i : DescIndex) (v w : Word), s.Inv → present s i = true →
    (i ∈ regList s ∨ s.regCount.toNat < 16) →
    ∃ t u, exec (.init i v) s = .next t ∧ exec (.init i w) t = .next u ∧
      t.code = .ok ∧ u.code = .ok ∧ (i ∈ regList s → t.regSlot = s.regSlot ∧ t.regCount = s.regCount) ∧
      u.regSlot = t.regSlot ∧ u.regCount = t.regCount ∧ (regList u).count i = 1

/-- 41_lifecycle.md R93: DEINIT's error and its effect; the configuration and the registry stay. -/
def Obligations.DeinitRule : Prop :=
  ∀ (s : State) (i : DescIndex) (v : Word),
    CarriesPlain (.deinit i v) 0x3 i v ∧
    (present s i = false → exec (.deinit i v) s = .next (statusOnly s .invalidArgument 0x3)) ∧
    (present s i = true → exec (.deinit i v) s = .next { s with
      desc := s.desc.modify i.toNat fun d => { d with period := 0, duty := 0, state := .inactive }
      events := s.events ++ [.hookDeinit (descAt s i).tmr (descAt s i).ch]
      code := .ok, lastOp := 0x3 })

/-- 41_lifecycle.md R95: START's error, its SKIP, and its effect with its events in order, the siblings being those of
the state before the command. -/
def Obligations.StartRule : Prop :=
  ∀ (s : State) (i : DescIndex) (v : Word),
    CarriesPlain (.start i v) 0x4 i v ∧
    (present s i = false → exec (.start i v) s = .next (statusOnly s .invalidArgument 0x4)) ∧
    (present s i = true → (descAt s i).state = .active → exec (.start i v) s = .next (statusOnly s .skip 0x4)) ∧
    (present s i = true → (descAt s i).state = .inactive →
      ∀ r : Word, r.toNat = (2 + 100 * (descAt s i).cs.toNat) % 2 ^ 32 →
      exec (.start i v) s = .next { s with
        desc := s.desc.modify i.toNat fun d => { d with period := 0, duty := 0, state := .active }
        shadow := s.shadow.set (descAt s i).tmr.toNat r
        events := s.events ++ [.wrCompare (descAt s i).tmr (descAt s i).ch 0] ++ fanOut s (descAt s i).tmr r ++
          [.pwmStart (descAt s i).tmr (descAt s i).ch]
        code := .ok, lastOp := 0x4 })

/-- 41_lifecycle.md R97: STOP's error and its effect; it has no skip case, and the cached period and duty stay. -/
def Obligations.StopRule : Prop :=
  ∀ (s : State) (i : DescIndex) (v : Word),
    CarriesPlain (.stop i v) 0x5 i v ∧
    (present s i = false → exec (.stop i v) s = .next (statusOnly s .invalidArgument 0x5)) ∧
    (present s i = true → exec (.stop i v) s = .next { s with
      desc := s.desc.modify i.toNat fun d => { d with state := .inactive }
      events := s.events ++ [.pwmStop (descAt s i).tmr (descAt s i).ch]
      code := .ok, lastOp := 0x5 })

/-- 42_period_duty.md R107: SETPER's error and its effect: the requester's period, the reload of the requester's clock
scale, and the fan-out to the siblings. -/
def Obligations.SetperRule : Prop :=
  ∀ (s : State) (i : DescIndex) (v : Word),
    CarriesPlain (.setper i v) 0x6 i v ∧
    (present s i = false → exec (.setper i v) s = .next (statusOnly s .invalidArgument 0x6)) ∧
    (present s i = true →
      ∀ r : Word, r.toNat = (2 + v.toNat * (descAt s i).cs.toNat) % 2 ^ 32 →
      exec (.setper i v) s = .next { s with
        desc := s.desc.modify i.toNat fun d => { d with period := v }
        shadow := s.shadow.set (descAt s i).tmr.toNat r
        events := s.events ++ fanOut s (descAt s i).tmr r
        code := .ok, lastOp := 0x6 })

/-- 42_period_duty.md R112: SETDUTY's errors, its SKIP and its effect, for either setting of `DUTY_MUL`. No state of the
descriptor is asked for (R114). -/
def Obligations.SetdutyRule : Prop :=
  ∀ (s : State) (i : DescIndex) (f : Word),
    CarriesPlain (.setduty i f) 0x7 i f ∧
    (present s i = false → exec (.setduty i f) s = .next (statusOnly s .invalidArgument 0x7)) ∧
    (present s i = true → (∀ p, dutyConv s.straps.dutyMul f = some p → p < 0 ∨ 1000 < p) →
      exec (.setduty i f) s = .next (statusOnly s .outOfRange 0x7)) ∧
    (∀ p : ℕ, present s i = true → dutyConv s.straps.dutyMul f = some (p : ℤ) → p ≤ 1000 →
      ((descAt s i).duty.toNat = p → exec (.setduty i f) s = .next (statusOnly s .skip 0x7)) ∧
      ((descAt s i).duty.toNat ≠ p → exec (.setduty i f) s = .next { s with
        desc := s.desc.modify i.toNat fun d => { d with duty := BitVec.ofNat 10 p }
        events := s.events ++
          [.wrCompare (descAt s i).tmr (descAt s i).ch (compareValue p (shadowAt s (descAt s i).tmr)), .barrier]
        code := .ok, lastOp := 0x7 }))

/-- 42_period_duty.md R116: SETFREQ's two errors, absence first, and its effect: that of SETPER with the converted
period, spelled out. -/
def Obligations.SetfreqRule : Prop :=
  ∀ (s : State) (i : DescIndex) (v : Word),
    CarriesPlain (.setfreq i v) 0x8 i v ∧
    (present s i = false → exec (.setfreq i v) s = .next (statusOnly s .invalidArgument 0x8)) ∧
    (present s i = true → v.toNat < 10 → exec (.setfreq i v) s = .next (statusOnly s .divideByZero 0x8)) ∧
    (present s i = true → 10 ≤ v.toNat →
      ∀ p r : Word, p.toNat = 100000 / (v.toNat / 10) →
      r.toNat = (2 + p.toNat * (descAt s i).cs.toNat) % 2 ^ 32 →
      exec (.setfreq i v) s = .next { s with
        desc := s.desc.modify i.toNat fun d => { d with period := p }
        shadow := s.shadow.set (descAt s i).tmr.toNat r
        events := s.events ++ fanOut s (descAt s i).tmr r
        code := .ok, lastOp := 0x8 } ∧
      ∃ t, exec (.setper i p) s = .next t ∧ exec (.setfreq i v) s = .next { t with lastOp := 0x8 })

/-- 43_readback.md R119 and R120: RDDESC of a bad index or selector writes only STATUS; else RDATA takes the selected
field. It does not ask for a configured slot. -/
def Obligations.RddescRule : Prop :=
  ∀ (s : State) (i : DescIndex) (x : Word),
    CarriesPlain (.rddesc i x) 0x9 i x ∧
    ((s.nDesc ≤ i.toNat ∨ 4 < x.toNat) →
      exec (.rddesc i x) s = .next (statusOnly s .invalidArgument 0x9)) ∧
    (i.toNat < s.nDesc → x.toNat ≤ 4 →
      ∃ r : Word, exec (.rddesc i x) s = .next { s with rdata := r, code := .ok, lastOp := 0x9 } ∧
        (x = 0 → r.toNat =
          (if (descAt s i).state = .active then 1 else 0) + (if (descAt s i).cfg = true then 2 else 0) +
          (if i ∈ regList s then 4 else 0) + (descAt s i).ch.toNat * 2 ^ 8 + (descAt s i).tmr.toNat * 2 ^ 16) ∧
        (x = 1 → r.toNat = (descAt s i).duty.toNat) ∧
        (x = 2 → r = (descAt s i).period) ∧
        (x = 3 → r = (descAt s i).cs) ∧
        (x = 4 → r = if (descAt s i).cfg = true then shadowAt s (descAt s i).tmr else 0))

/-- 43_readback.md R121: RDENG's selectors, its error, and ILLEGAL_COMMAND when DESC, TMR or CH is not 0. -/
def Obligations.RdengRule : Prop :=
  ∀ (s : State) (x : Word),
    CarriesPlain (.rdeng x) 0xA 0 x ∧
    (∀ f : Cmd64, f.op = 0xA → (f.desc ≠ 0 ∨ f.tmr ≠ 0 ∨ f.ch ≠ 0) →
      execute (packFields f) s = .next (statusOnly s .illegalCommand 0xA)) ∧
    (x = 0 → ∃ r : Word, r.toNat = s.regCount.toNat ∧
      exec (.rdeng x) s = .next { s with rdata := r, code := .ok, lastOp := 0xA }) ∧
    (∀ k : ℕ, ∀ hk : k < 16, x.toNat = 0x100 + k → ∃ r : Word,
      (k < s.regCount.toNat → r.toNat = s.regSlot[k].toNat) ∧ (s.regCount.toNat ≤ k → r = 0xFFFFFFFF) ∧
      exec (.rdeng x) s = .next { s with rdata := r, code := .ok, lastOp := 0xA }) ∧
    (∀ t : ℕ, ∀ ht : t < s.nTimer, x.toNat = 0x200 + t →
      exec (.rdeng x) s = .next { s with rdata := s.shadow[t], code := .ok, lastOp := 0xA }) ∧
    (x.toNat ≠ 0 → ¬ (0x100 ≤ x.toNat ∧ x.toNat ≤ 0x10F) → ¬ (0x200 ≤ x.toNat ∧ x.toNat < 0x200 + s.nTimer) →
      exec (.rdeng x) s = .next (statusOnly s .invalidArgument 0xA))

/-- 40_registry.md R88: the siblings on `t` are the registered ACTIVE descriptors on `t`, each as often as the registry
holds it, in registry order. -/
def Obligations.SiblingsAreRegisteredActive : Prop :=
  ∀ (s : State) (t : TimerIndex),
    (∀ j, j ∈ siblings s t ↔ j ∈ regList s ∧ (descAt s j).tmr = t ∧ (descAt s j).state = .active) ∧
    (siblings s t).Sublist (regList s) ∧
    (∀ j, (descAt s j).tmr = t → (descAt s j).state = .active → (siblings s t).count j = (regList s).count j)

/-! ### Whole-machine rules -/

/-- 60_exceptions.md R128: a command, legal or illegal, that ends with a code other than OK has written nothing except
STATUS and has emitted no event. -/
def Obligations.ErrorsArePrecise : Prop :=
  (∀ (i : Instr) (s t : State), exec i s = .next t → t.code ≠ .ok → t = statusOnly s t.code (opOf i)) ∧
  (∀ (w : CmdWord) (s t : State), execute w s = .next t → t.code ≠ .ok →
    t = statusOnly s t.code (w.extractLsb' 60 4))

/-- The table of 60_exceptions.md R125, read per code: LAST_OP names the command, and each code but OK is the command's
exactly on its condition, in the order of R127 (so that a command has at most one of them, and OK is what remains). -/
def Obligations.EachCodeHasItsCause : Prop :=
  ∀ (i : Instr) (s t : State), exec i s = .next t →
    t.lastOp = opOf i ∧
    (t.code = .skip ↔
      (∃ d v, i = .start d v ∧ present s d = true ∧ (descAt s d).state = .active) ∨
      (∃ d f, i = .setduty d f ∧ present s d = true ∧ (descAt s d).duty.toNat ≤ 1000 ∧
        dutyConv s.straps.dutyMul f = some ((descAt s d).duty.toNat : ℤ))) ∧
    (t.code = .invalidArgument ↔ BadArgument i s) ∧
    (t.code = .outOfRange ↔ ∃ d f, i = .setduty d f ∧ present s d = true ∧
      ∀ p, dutyConv s.straps.dutyMul f = some p → p < 0 ∨ 1000 < p) ∧
    (t.code = .capacityExceeded ↔ ∃ d v, i = .init d v ∧ present s d = true ∧ s.regCount.toNat = 16 ∧
      d ∉ regList s) ∧
    (t.code = .divideByZero ↔ ∃ d v, i = .setfreq d v ∧ present s d = true ∧ v.toNat < 10) ∧
    t.code ≠ .illegalCommand

/-- 60_exceptions.md R127, for an absent descriptor: every command but CONFIG, RDDESC and RDENG reports
INVALID_ARGUMENT before any error of its own, a SETFREQ of operand 0 among them. -/
def Obligations.AbsentDescriptorComesFirst : Prop :=
  (∀ (i : Instr) (s : State) (d : DescIndex), descOf? i = some d → present s d = false →
    (∀ t c v, i ≠ .config d t c v) → (∀ x, i ≠ .rddesc d x) →
    exec i s = .next (statusOnly s .invalidArgument (opOf i))) ∧
  (∀ (s : State) (d : DescIndex), present s d = false →
    exec (.setfreq d 0) s = .next (statusOnly s .invalidArgument 0x8))

/-- The frame every command shares: OPERAND, COMMAND, the parameters, the pending moves and the bus answer stay, every
slot but the command's own stays, and events are only added (10_state.md R33, 00_scope.md R14). -/
def Obligations.CommandFrame : Prop :=
  ∀ (i : Instr) (s t : State), exec i s = .next t →
    t.operand = s.operand ∧ t.command = s.command ∧ t.params = s.params ∧ t.inputs = s.inputs ∧
    t.response = s.response ∧ s.events <+: t.events ∧
    ∀ j : ℕ, (∀ d, descOf? i = some d → d.toNat ≠ j) → t.desc[j]? = s.desc[j]?

/-- The W entries of the table of 10_state.md R38, and RDATA's of R36: a field that differs after a command was written
by one of the commands the table names. -/
def Obligations.OnlyTheirCommandsWriteFields : Prop :=
  ∀ (i : Instr) (s t : State), exec i s = .next t →
    ((∃ j, (descAt t j).ch ≠ (descAt s j).ch ∨ (descAt t j).tmr ≠ (descAt s j).tmr ∨
        (descAt t j).cs ≠ (descAt s j).cs ∨ (descAt t j).cfg ≠ (descAt s j).cfg) → opOf i = 0x1) ∧
    ((∃ j, (descAt t j).period ≠ (descAt s j).period) →
      opOf i = 0x2 ∨ opOf i = 0x3 ∨ opOf i = 0x4 ∨ opOf i = 0x6 ∨ opOf i = 0x8) ∧
    ((∃ j, (descAt t j).duty ≠ (descAt s j).duty) → opOf i = 0x2 ∨ opOf i = 0x3 ∨ opOf i = 0x4 ∨ opOf i = 0x7) ∧
    ((∃ j, (descAt t j).state ≠ (descAt s j).state) → opOf i = 0x2 ∨ opOf i = 0x3 ∨ opOf i = 0x4 ∨ opOf i = 0x5) ∧
    (t.regSlot ≠ s.regSlot ∨ t.regCount ≠ s.regCount → opOf i = 0x2) ∧
    (t.shadow ≠ s.shadow → opOf i = 0x4 ∨ opOf i = 0x6 ∨ opOf i = 0x8) ∧
    (t.rdata ≠ s.rdata → opOf i = 0x9 ∨ opOf i = 0xA)

/-- 40_registry.md R89: no command removes a registry entry or moves one: what is registered stays where it is. -/
def Obligations.RegistryOnlyGrows : Prop :=
  ∀ (i : Instr) (s t : State), s.RegistryGood → exec i s = .next t → regList s <+: regList t

/-- 70_reset_and_hazards.md R162: the number of events of a command on OK, and none on SKIP or error; there are at most
16 siblings. -/
def Obligations.EventCounts : Prop :=
  ∀ (i : Instr) (s t : State), exec i s = .next t →
    (∀ u, (siblings s u).length ≤ 16) ∧
    (t.code ≠ .ok → newEvents s t = []) ∧
    (t.code = .ok → ∀ n : ℕ,
      (∀ d, descOf? i = some d → n = (siblings s (descAt s d).tmr).length) →
      (newEvents s t).length = okEvents n i)

/-- 20_memory.md R59, R60 and R62: every command's events open and close critical sections in turn without nesting;
only START, SETPER and SETFREQ open one, once; and BARRIER is emitted once by these and by SETDUTY on OK, and by no
other command. -/
def Obligations.SectionsAndBarriers : Prop :=
  ∀ (i : Instr) (s t : State), exec i s = .next t →
    sectionsClosed false (newEvents s t) = true ∧
    (newEvents s t).count .csEnter = (if t.code = .ok ∧ writesReload i = true then 1 else 0) ∧
    (newEvents s t).count .barrier =
      (if t.code = .ok ∧ (writesReload i = true ∨ opOf i = 0x7) then 1 else 0) ∧
    (t.code = .ok → writesReload i = true ∧ opOf i ≠ 0x4 ∨ opOf i = 0x7 → (newEvents s t).getLast? = some .barrier)

/-- 10_state.md R32: after a command, the shadow of an existing timer is the last reload the command emitted to it, and
the old value if it emitted none. -/
def Obligations.ShadowIsLastEmittedReload : Prop :=
  ∀ (i : Instr) (s t : State) (u : TimerIndex), exec i s = .next t → u.toNat < s.nTimer →
    shadowAt t u = (lastReload u (newEvents s t)).getD (shadowAt s u)

/-- A command about a descriptor on one timer reaches no other timer: its events address that timer only, and the
shadows of the others stay (42_period_duty.md R105, 20_memory.md R55). -/
def Obligations.OtherTimersAreUntouched : Prop :=
  ∀ (i : Instr) (s t : State) (d : DescIndex), exec i s = .next t → descOf? i = some d →
    (∀ e ∈ newEvents s t, ∀ u, timerOf? e = some u → u = (descAt s d).tmr) ∧
    ∀ u : TimerIndex, u ≠ (descAt s d).tmr → shadowAt t u = shadowAt s u

/-- 43_readback.md R123: a readback changes only RDATA and STATUS, never returns SKIP, and a second one with no other
command between them gives the same RDATA. -/
def Obligations.ReadbackIsPure : Prop :=
  ∀ (i : Instr) (s t : State), (opOf i = 0x9 ∨ opOf i = 0xA) → exec i s = .next t →
    t = { s with rdata := t.rdata, code := t.code, lastOp := opOf i } ∧ t.code ≠ .skip ∧
    (t.code ≠ .ok → t.rdata = s.rdata) ∧
    ∃ u, exec i t = .next u ∧ u.rdata = t.rdata ∧ u.code = t.code

/-- 43_readback.md R124: readback determines the engine. Two states of engines of one size that answer every RDDESC and
every RDENG alike have the same descriptors, registry and shadows. -/
def Obligations.ReadbackDeterminesState : Prop :=
  ∀ s t : State, s.Inv → t.Inv → s.nDesc = t.nDesc → s.nTimer = t.nTimer →
    (∀ (d : DescIndex) (x : Word), answerOf (.rddesc d x) s = answerOf (.rddesc d x) t) →
    (∀ x : Word, answerOf (.rdeng x) s = answerOf (.rdeng x) t) →
    s.desc = t.desc ∧ s.regSlot = t.regSlot ∧ s.regCount = t.regCount ∧ s.shadow = t.shadow

/-! ### The engine with its timers -/

/-- What an event does at the timers (20_memory.md R56): a reload or compare write leaves the low `TIMER_WIDTH` bits of
its value in that one register, PWM_START and PWM_STOP set and clear that one channel's generation, and the other events
leave the timers alone; no other timer changes. The clause on HOOK_INIT and HOOK_DEINIT is the model's choice, not the
spec's (log entry 8, DEDUCED): R56 leaves the hooks' effect unspecified, and the model applies an arbitrary effect to the
hook's own timer and lets it reach no other. -/
def Obligations.EventsWriteTheirRegister : Prop :=
  ∀ (hook : HookEffect) (width : ℕ) (P : Platform) (t : TimerIndex) (R : TimerRegs),
    P.timers[t.toNat]? = some R →
    (∀ r x : Word, x.toNat = r.toNat % 2 ^ width →
      (perform hook width (.wrReload t r) P).timers = P.timers.set t.toNat { R with reload := x }) ∧
    (∀ (ch : Channel) (c x : Word), 1 ≤ ch.toNat → ch.toNat ≤ 5 → x.toNat = c.toNat % 2 ^ width →
      ∃ cmp, (perform hook width (.wrCompare t ch c) P).timers = P.timers.set t.toNat { R with cmp := cmp } ∧
        cmp[ch.toNat - 1]? = some x ∧ ∀ k, k ≠ ch.toNat - 1 → cmp[k]? = R.cmp[k]?) ∧
    (∀ ch : Channel, 1 ≤ ch.toNat → ch.toNat ≤ 5 → ∀ g e,
      (g = true ∧ e = Event.pwmStart t ch ∨ g = false ∧ e = Event.pwmStop t ch) →
      ∃ gen, (perform hook width e P).timers = P.timers.set t.toNat { R with generating := gen } ∧
        gen[ch.toNat - 1]? = some g ∧ ∀ k, k ≠ ch.toNat - 1 → gen[k]? = R.generating[k]?) ∧
    (∀ (ch : Channel) (e : Event), (e = .hookInit t ch ∨ e = .hookDeinit t ch) →
      (perform hook width e P).timers = P.timers.set t.toNat (hook P.performed e R)) ∧
    (∀ e ∈ [Event.csEnter, .csExit, .barrier], (perform hook width e P).timers = P.timers)

/-- 20_memory.md R59, R60 and 42_period_duty.md R106: while a SETPER or a SETFREQ runs, the update observer sees the
timers as they were before the command or as they are after it. While a START runs (41_lifecycle.md R95,
70_reset_and_hazards.md R159) it also sees them with nothing but the channel's own compare written to 0, and with every
reload and compare as after the command, before or after PWM_START: never a reload without its compares. -/
def Obligations.ObserverSeesNoTornReload : Prop :=
  ∀ (hook : HookEffect) (i : Instr) (s t : State) (P : Platform),
    exec i s = .next t → P.inSection = false →
    ∀ V ∈ observerViews hook s.straps.timerWidth (newEvents s t) P,
      (opOf i = 0x6 ∨ opOf i = 0x8 →
        V = P.timers ∨ V = (performAll hook s.straps.timerWidth (newEvents s t) P).timers) ∧
      (∀ d v, i = .start d v →
        V = P.timers ∨ V = P.timers.modify (descAt s d).tmr.toNat (writeCmp (descAt s d).ch 0) ∨
        V.map registersOf = (performAll hook s.straps.timerWidth (newEvents s t) P).timers.map registersOf)

/-- The requirement of 20_memory.md R59 over every command: from consistent timers, every view the update observer can
have while the command's events are performed is consistent with the engine before the command or with the engine after
it, so it shows no new reload without the siblings' compares for it. The premises are those of
`CommandsKeepTimersConsistent`; that a hook reaches no timer but its own is the model's choice (log entry 8). -/
def Obligations.ObserverSeesConsistentTimers : Prop :=
  ∀ (hook : HookEffect) (i : Instr) (s t : State) (P : Platform),
    s.Inv → ChannelsDistinct s → P.timers.length = s.nTimer → HooksKeepRegisters hook i → P.inSection = false →
    Consistent s P.timers → exec i s = .next t →
    ∀ V ∈ observerViews hook s.straps.timerWidth (newEvents s t) P, Consistent s V ∨ Consistent t V

/-- The purpose of the fan-out (42_period_duty.md R105, 41_lifecycle.md R96), over every command: if every registered
ACTIVE descriptor's timer and compare register match its cached duty and its timer's shadow, they still do after the
command and its events. The host keeps configured channels distinct (70_reset_and_hazards.md R152). For INIT and DEINIT
the hooks must leave reload and compare registers alone, which the spec does not promise (93_implementation_defined.md
I3); that a hook reaches no timer but its own is the model's choice (log entry 8). Where the host also keeps the duty of 70_reset_and_hazards.md R151 and R154 for the period behind a shadow, the
timer's registers hold the shadow and the compare value whole, cut by nothing. -/
def Obligations.CommandsKeepTimersConsistent : Prop :=
  ∀ (hook : HookEffect) (i : Instr) (s t : State) (P : Platform),
    s.Inv → ChannelsDistinct s → P.timers.length = s.nTimer → HooksKeepRegisters hook i →
    Consistent s P.timers → exec i s = .next t →
    Consistent t (performAll hook s.straps.timerWidth (newEvents s t) P).timers ∧
    ∀ j ∈ regList t, (descAt t j).state = .active → ∀ v cs : ℕ, ReloadFits t.straps.timerWidth v cs →
      (shadowAt t (descAt t j).tmr).toNat = 2 + v * cs →
      ∃ R, (performAll hook s.straps.timerWidth (newEvents s t) P).timers[(descAt t j).tmr.toNat]? = some R ∧
        R.reload.toNat = 2 + v * cs ∧
        ∃ c, readCmp (descAt t j).ch R = some c ∧
          c = compareValue (descAt t j).duty.toNat (shadowAt t (descAt t j).tmr) ∧ c.toNat ≤ 2 + v * cs + 100

/-- 60_exceptions.md R138, the reference timer: a generating channel is high for `min(CMP, R+1)` counts of every
`R+1`; with the compare values of the engine that is never for 0, always for 1000 when the sentinel does not wrap, and
`1 + floor(d*R/1000)` counts between. -/
def Obligations.ReferenceTimerDuty : Prop :=
  (∀ reload cmp : ℕ, refHighCounts reload cmp = min cmp (reload + 1)) ∧
  (∀ (d : ℕ) (r : Word), r.toNat < 2 ^ 32 - 100 →
    refHighCounts r.toNat (compareValue 0 r).toNat = 0 ∧
    refHighCounts r.toNat (compareValue 1000 r).toNat = r.toNat + 1 ∧
    (1 ≤ d → d ≤ 999 → refHighCounts r.toNat (compareValue d r).toNat = 1 + d * r.toNat / 1000))

/-! ### The assembler -/

/-- 30_encoding.md R79, for every line form: a line assembles to the command of its mnemonic with each operand the number
written, and OPERAND 0 for INIT, DEINIT, START and STOP, exactly when every operand fits its field; else it is refused.
The pattern of a decimal duty literal is `DecimalLiteralIsNearestBinary32`'s. -/
def Obligations.AssemblerNeverTruncates : Prop :=
  (∀ i t c v : ℕ, Assembles (.config i t c v) (i < 256 ∧ t < 256 ∧ c < 8 ∧ v < 2 ^ 32) fun x =>
    ∃ d u ch w, x = .config d u ch w ∧ d.toNat = i ∧ u.toNat = t ∧ ch.toNat = c ∧ w.toNat = v) ∧
  (∀ i : ℕ,
    Assembles (.init i) (i < 256) (fun x => ∃ d, x = .init d 0 ∧ d.toNat = i) ∧
    Assembles (.deinit i) (i < 256) (fun x => ∃ d, x = .deinit d 0 ∧ d.toNat = i) ∧
    Assembles (.start i) (i < 256) (fun x => ∃ d, x = .start d 0 ∧ d.toNat = i) ∧
    Assembles (.stop i) (i < 256) (fun x => ∃ d, x = .stop d 0 ∧ d.toNat = i)) ∧
  (∀ i v : ℕ,
    Assembles (.setper i v) (i < 256 ∧ v < 2 ^ 32)
      (fun x => ∃ d w, x = .setper d w ∧ d.toNat = i ∧ w.toNat = v) ∧
    Assembles (.setfreq i v) (i < 256 ∧ v < 2 ^ 32)
      (fun x => ∃ d w, x = .setfreq d w ∧ d.toNat = i ∧ w.toNat = v) ∧
    Assembles (.rddesc i v) (i < 256 ∧ v < 2 ^ 32)
      (fun x => ∃ d w, x = .rddesc d w ∧ d.toNat = i ∧ w.toNat = v) ∧
    Assembles (.setduty i (.raw v)) (i < 256 ∧ v < 2 ^ 32)
      (fun x => ∃ d w, x = .setduty d w ∧ d.toNat = i ∧ w.toNat = v)) ∧
  (∀ (i : ℕ) (negative : Bool) (digits fraction : ℕ),
    Assembles (.setduty i (.decimal negative digits fraction)) (i < 256)
      (fun x => ∃ d, x = .setduty d (dutyPattern (.decimal negative digits fraction)) ∧ d.toNat = i)) ∧
  (∀ v : ℕ, Assembles (.rdeng v) (v < 2 ^ 32) (fun x => ∃ w, x = .rdeng w ∧ w.toNat = v)) ∧
  (∀ i : ℕ,
    Assembles (.off i) (i < 256) (fun x => ∃ d w, x = .setduty d w ∧ d.toNat = i ∧ w.toNat = 0) ∧
    Assembles (.fullon i) (i < 256) (fun x => ∃ d w, x = .setduty d w ∧ d.toNat = i ∧ w.toNat = 0x42C80000)) ∧
  Assembles .rdcount True (fun x => ∃ w, x = .rdeng w ∧ w.toNat = 0) ∧
  (∀ k : ℕ, Assembles (.rdslot k) (k < 16) (fun x => ∃ w, x = .rdeng w ∧ w.toNat = 0x100 + k)) ∧
  (∀ t : ℕ, Assembles (.rdshadow t) (t < 256) (fun x => ∃ w, x = .rdeng w ∧ w.toNat = 0x200 + t))

/-- 30_encoding.md R78: a decimal duty literal is the binary32 value nearest to it, on a tie the one with the even
significand, with the literal's sign. That a literal from the overflow threshold on becomes the infinity of its sign, and
a negative one that is or rounds to zero becomes -0, is the model's choice (log entry 16). -/
def Obligations.DecimalLiteralIsNearestBinary32 : Prop :=
  ∀ (negative : Bool) (digits fraction : ℕ) (q : ℚ) (f : Word),
    q = (digits : ℚ) / 10 ^ fraction → f = dutyPattern (.decimal negative digits fraction) →
    f.getLsbD 31 = negative ∧
    (2 ^ 128 - 2 ^ 103 ≤ q → f.toNat % 2 ^ 31 = 0x7F800000) ∧
    (q < 2 ^ 128 - 2 ^ 103 → F32Finite f ∧
      ∀ g : Word, F32Finite g →
        abs (q - |f32Value f|) ≤ abs (q - |f32Value g|) ∧
        (abs (q - |f32Value f|) = abs (q - |f32Value g|) → |f32Value f| ≠ |f32Value g| → f.toNat % 2 = 0))

/-- 30_encoding.md R80: the one command each pseudo-command gives, that it is the command its expansion gives, and what is
refused. -/
def Obligations.PseudoCommandsExpand : Prop :=
  (∀ (i : ℕ) (d : DescIndex), d.toNat = i →
    assembleLine (.off i) = some (.setduty d 0x00000000) ∧
    assembleLine (.setduty i (.decimal false 0 1)) = some (.setduty d 0x00000000) ∧
    assembleLine (.fullon i) = some (.setduty d 0x42C80000) ∧
    assembleLine (.setduty i (.decimal false 1000 1)) = some (.setduty d 0x42C80000)) ∧
  (∀ i : ℕ, 256 ≤ i → assembleLine (.off i) = none ∧ assembleLine (.fullon i) = none) ∧
  assembleLine .rdcount = some (.rdeng 0x000) ∧
  (∀ (k : ℕ) (w : Word), k ≤ 15 → w.toNat = 0x100 + k →
    assembleLine (.rdslot k) = some (.rdeng w) ∧ assembleLine (.rdeng (0x100 + k)) = some (.rdeng w)) ∧
  (∀ k : ℕ, 16 ≤ k → assembleLine (.rdslot k) = none) ∧
  (∀ (t : ℕ) (w : Word), t ≤ 255 → w.toNat = 0x200 + t →
    assembleLine (.rdshadow t) = some (.rdeng w) ∧ assembleLine (.rdeng (0x200 + t)) = some (.rdeng w)) ∧
  (∀ t : ℕ, 256 ≤ t → assembleLine (.rdshadow t) = none)
end

