-- ==== Sys2Proof/Laws/State.lean ====
section
/-! SUPPORT. What each named update leaves in each field of the state, and what it leaves of the views built on the
fields: one lemma per field per update. -/

namespace Sys2Proof.Machine

/-! ### modDesc -/

@[simp] theorem modDesc_desc (i : DescIndex) (f : Desc → Desc) (s : State) : (modDesc i f s).desc = s.desc.modify i.toNat f := rfl
@[simp] theorem modDesc_regSlot (i : DescIndex) (f : Desc → Desc) (s : State) : (modDesc i f s).regSlot = s.regSlot := rfl
@[simp] theorem modDesc_regCount (i : DescIndex) (f : Desc → Desc) (s : State) : (modDesc i f s).regCount = s.regCount := rfl
@[simp] theorem modDesc_shadow (i : DescIndex) (f : Desc → Desc) (s : State) : (modDesc i f s).shadow = s.shadow := rfl
@[simp] theorem modDesc_operand (i : DescIndex) (f : Desc → Desc) (s : State) : (modDesc i f s).operand = s.operand := rfl
@[simp] theorem modDesc_command (i : DescIndex) (f : Desc → Desc) (s : State) : (modDesc i f s).command = s.command := rfl
@[simp] theorem modDesc_code (i : DescIndex) (f : Desc → Desc) (s : State) : (modDesc i f s).code = s.code := rfl
@[simp] theorem modDesc_lastOp (i : DescIndex) (f : Desc → Desc) (s : State) : (modDesc i f s).lastOp = s.lastOp := rfl
@[simp] theorem modDesc_rdata (i : DescIndex) (f : Desc → Desc) (s : State) : (modDesc i f s).rdata = s.rdata := rfl
@[simp] theorem modDesc_straps (i : DescIndex) (f : Desc → Desc) (s : State) : (modDesc i f s).straps = s.straps := rfl
@[simp] theorem modDesc_events (i : DescIndex) (f : Desc → Desc) (s : State) : (modDesc i f s).events = s.events := rfl
@[simp] theorem modDesc_inputs (i : DescIndex) (f : Desc → Desc) (s : State) : (modDesc i f s).inputs = s.inputs := rfl
@[simp] theorem modDesc_response (i : DescIndex) (f : Desc → Desc) (s : State) : (modDesc i f s).response = s.response := rfl

/-! ### setShadow -/

@[simp] theorem setShadow_desc (t : TimerIndex) (r : Word) (s : State) : (setShadow t r s).desc = s.desc := rfl
@[simp] theorem setShadow_regSlot (t : TimerIndex) (r : Word) (s : State) : (setShadow t r s).regSlot = s.regSlot := rfl
@[simp] theorem setShadow_regCount (t : TimerIndex) (r : Word) (s : State) : (setShadow t r s).regCount = s.regCount := rfl
@[simp] theorem setShadow_shadow (t : TimerIndex) (r : Word) (s : State) : (setShadow t r s).shadow = s.shadow.set t.toNat r := rfl
@[simp] theorem setShadow_operand (t : TimerIndex) (r : Word) (s : State) : (setShadow t r s).operand = s.operand := rfl
@[simp] theorem setShadow_command (t : TimerIndex) (r : Word) (s : State) : (setShadow t r s).command = s.command := rfl
@[simp] theorem setShadow_code (t : TimerIndex) (r : Word) (s : State) : (setShadow t r s).code = s.code := rfl
@[simp] theorem setShadow_lastOp (t : TimerIndex) (r : Word) (s : State) : (setShadow t r s).lastOp = s.lastOp := rfl
@[simp] theorem setShadow_rdata (t : TimerIndex) (r : Word) (s : State) : (setShadow t r s).rdata = s.rdata := rfl
@[simp] theorem setShadow_straps (t : TimerIndex) (r : Word) (s : State) : (setShadow t r s).straps = s.straps := rfl
@[simp] theorem setShadow_events (t : TimerIndex) (r : Word) (s : State) : (setShadow t r s).events = s.events := rfl
@[simp] theorem setShadow_inputs (t : TimerIndex) (r : Word) (s : State) : (setShadow t r s).inputs = s.inputs := rfl
@[simp] theorem setShadow_response (t : TimerIndex) (r : Word) (s : State) : (setShadow t r s).response = s.response := rfl

/-! ### setRdata -/

@[simp] theorem setRdata_desc (x : Word) (s : State) : (setRdata x s).desc = s.desc := rfl
@[simp] theorem setRdata_regSlot (x : Word) (s : State) : (setRdata x s).regSlot = s.regSlot := rfl
@[simp] theorem setRdata_regCount (x : Word) (s : State) : (setRdata x s).regCount = s.regCount := rfl
@[simp] theorem setRdata_shadow (x : Word) (s : State) : (setRdata x s).shadow = s.shadow := rfl
@[simp] theorem setRdata_operand (x : Word) (s : State) : (setRdata x s).operand = s.operand := rfl
@[simp] theorem setRdata_command (x : Word) (s : State) : (setRdata x s).command = s.command := rfl
@[simp] theorem setRdata_code (x : Word) (s : State) : (setRdata x s).code = s.code := rfl
@[simp] theorem setRdata_lastOp (x : Word) (s : State) : (setRdata x s).lastOp = s.lastOp := rfl
@[simp] theorem setRdata_rdata (x : Word) (s : State) : (setRdata x s).rdata = x := rfl
@[simp] theorem setRdata_straps (x : Word) (s : State) : (setRdata x s).straps = s.straps := rfl
@[simp] theorem setRdata_events (x : Word) (s : State) : (setRdata x s).events = s.events := rfl
@[simp] theorem setRdata_inputs (x : Word) (s : State) : (setRdata x s).inputs = s.inputs := rfl
@[simp] theorem setRdata_response (x : Word) (s : State) : (setRdata x s).response = s.response := rfl

/-! ### emitAll -/

@[simp] theorem emitAll_desc (es : List Event) (s : State) : (emitAll es s).desc = s.desc := rfl
@[simp] theorem emitAll_regSlot (es : List Event) (s : State) : (emitAll es s).regSlot = s.regSlot := rfl
@[simp] theorem emitAll_regCount (es : List Event) (s : State) : (emitAll es s).regCount = s.regCount := rfl
@[simp] theorem emitAll_shadow (es : List Event) (s : State) : (emitAll es s).shadow = s.shadow := rfl
@[simp] theorem emitAll_operand (es : List Event) (s : State) : (emitAll es s).operand = s.operand := rfl
@[simp] theorem emitAll_command (es : List Event) (s : State) : (emitAll es s).command = s.command := rfl
@[simp] theorem emitAll_code (es : List Event) (s : State) : (emitAll es s).code = s.code := rfl
@[simp] theorem emitAll_lastOp (es : List Event) (s : State) : (emitAll es s).lastOp = s.lastOp := rfl
@[simp] theorem emitAll_rdata (es : List Event) (s : State) : (emitAll es s).rdata = s.rdata := rfl
@[simp] theorem emitAll_straps (es : List Event) (s : State) : (emitAll es s).straps = s.straps := rfl
@[simp] theorem emitAll_events (es : List Event) (s : State) : (emitAll es s).events = s.events ++ es := rfl
@[simp] theorem emitAll_inputs (es : List Event) (s : State) : (emitAll es s).inputs = s.inputs := rfl
@[simp] theorem emitAll_response (es : List Event) (s : State) : (emitAll es s).response = s.response := rfl

/-! ### emit -/

@[simp] theorem emit_desc (e : Event) (s : State) : (emit e s).desc = s.desc := rfl
@[simp] theorem emit_regSlot (e : Event) (s : State) : (emit e s).regSlot = s.regSlot := rfl
@[simp] theorem emit_regCount (e : Event) (s : State) : (emit e s).regCount = s.regCount := rfl
@[simp] theorem emit_shadow (e : Event) (s : State) : (emit e s).shadow = s.shadow := rfl
@[simp] theorem emit_operand (e : Event) (s : State) : (emit e s).operand = s.operand := rfl
@[simp] theorem emit_command (e : Event) (s : State) : (emit e s).command = s.command := rfl
@[simp] theorem emit_code (e : Event) (s : State) : (emit e s).code = s.code := rfl
@[simp] theorem emit_lastOp (e : Event) (s : State) : (emit e s).lastOp = s.lastOp := rfl
@[simp] theorem emit_rdata (e : Event) (s : State) : (emit e s).rdata = s.rdata := rfl
@[simp] theorem emit_straps (e : Event) (s : State) : (emit e s).straps = s.straps := rfl
@[simp] theorem emit_events (e : Event) (s : State) : (emit e s).events = s.events ++ [e] := rfl
@[simp] theorem emit_inputs (e : Event) (s : State) : (emit e s).inputs = s.inputs := rfl
@[simp] theorem emit_response (e : Event) (s : State) : (emit e s).response = s.response := rfl

/-! ### appendReg -/

@[simp] theorem appendReg_desc (i : DescIndex) (s : State) : (appendReg i s).desc = s.desc := rfl
@[simp] theorem appendReg_regSlot (i : DescIndex) (s : State) : (appendReg i s).regSlot = s.regSlot.setIfInBounds s.regCount.toNat i := rfl
@[simp] theorem appendReg_regCount (i : DescIndex) (s : State) : (appendReg i s).regCount = s.regCount + 1 := rfl
@[simp] theorem appendReg_shadow (i : DescIndex) (s : State) : (appendReg i s).shadow = s.shadow := rfl
@[simp] theorem appendReg_operand (i : DescIndex) (s : State) : (appendReg i s).operand = s.operand := rfl
@[simp] theorem appendReg_command (i : DescIndex) (s : State) : (appendReg i s).command = s.command := rfl
@[simp] theorem appendReg_code (i : DescIndex) (s : State) : (appendReg i s).code = s.code := rfl
@[simp] theorem appendReg_lastOp (i : DescIndex) (s : State) : (appendReg i s).lastOp = s.lastOp := rfl
@[simp] theorem appendReg_rdata (i : DescIndex) (s : State) : (appendReg i s).rdata = s.rdata := rfl
@[simp] theorem appendReg_straps (i : DescIndex) (s : State) : (appendReg i s).straps = s.straps := rfl
@[simp] theorem appendReg_events (i : DescIndex) (s : State) : (appendReg i s).events = s.events := rfl
@[simp] theorem appendReg_inputs (i : DescIndex) (s : State) : (appendReg i s).inputs = s.inputs := rfl
@[simp] theorem appendReg_response (i : DescIndex) (s : State) : (appendReg i s).response = s.response := rfl

/-! ### respond -/

@[simp] theorem respond_desc (r : Response) (s : State) : (respond r s).desc = s.desc := rfl
@[simp] theorem respond_regSlot (r : Response) (s : State) : (respond r s).regSlot = s.regSlot := rfl
@[simp] theorem respond_regCount (r : Response) (s : State) : (respond r s).regCount = s.regCount := rfl
@[simp] theorem respond_shadow (r : Response) (s : State) : (respond r s).shadow = s.shadow := rfl
@[simp] theorem respond_operand (r : Response) (s : State) : (respond r s).operand = s.operand := rfl
@[simp] theorem respond_command (r : Response) (s : State) : (respond r s).command = s.command := rfl
@[simp] theorem respond_code (r : Response) (s : State) : (respond r s).code = s.code := rfl
@[simp] theorem respond_lastOp (r : Response) (s : State) : (respond r s).lastOp = s.lastOp := rfl
@[simp] theorem respond_rdata (r : Response) (s : State) : (respond r s).rdata = s.rdata := rfl
@[simp] theorem respond_straps (r : Response) (s : State) : (respond r s).straps = s.straps := rfl
@[simp] theorem respond_events (r : Response) (s : State) : (respond r s).events = s.events := rfl
@[simp] theorem respond_inputs (r : Response) (s : State) : (respond r s).inputs = s.inputs := rfl
@[simp] theorem respond_response (r : Response) (s : State) : (respond r s).response = some r := rfl

/-! ### setOperand -/

@[simp] theorem setOperand_desc (v : Word) (s : State) : (setOperand v s).desc = s.desc := rfl
@[simp] theorem setOperand_regSlot (v : Word) (s : State) : (setOperand v s).regSlot = s.regSlot := rfl
@[simp] theorem setOperand_regCount (v : Word) (s : State) : (setOperand v s).regCount = s.regCount := rfl
@[simp] theorem setOperand_shadow (v : Word) (s : State) : (setOperand v s).shadow = s.shadow := rfl
@[simp] theorem setOperand_operand (v : Word) (s : State) : (setOperand v s).operand = v := rfl
@[simp] theorem setOperand_command (v : Word) (s : State) : (setOperand v s).command = s.command := rfl
@[simp] theorem setOperand_code (v : Word) (s : State) : (setOperand v s).code = s.code := rfl
@[simp] theorem setOperand_lastOp (v : Word) (s : State) : (setOperand v s).lastOp = s.lastOp := rfl
@[simp] theorem setOperand_rdata (v : Word) (s : State) : (setOperand v s).rdata = s.rdata := rfl
@[simp] theorem setOperand_straps (v : Word) (s : State) : (setOperand v s).straps = s.straps := rfl
@[simp] theorem setOperand_events (v : Word) (s : State) : (setOperand v s).events = s.events := rfl
@[simp] theorem setOperand_inputs (v : Word) (s : State) : (setOperand v s).inputs = s.inputs := rfl
@[simp] theorem setOperand_response (v : Word) (s : State) : (setOperand v s).response = s.response := rfl

/-! ### setCommand -/

@[simp] theorem setCommand_desc (v : Word) (s : State) : (setCommand v s).desc = s.desc := rfl
@[simp] theorem setCommand_regSlot (v : Word) (s : State) : (setCommand v s).regSlot = s.regSlot := rfl
@[simp] theorem setCommand_regCount (v : Word) (s : State) : (setCommand v s).regCount = s.regCount := rfl
@[simp] theorem setCommand_shadow (v : Word) (s : State) : (setCommand v s).shadow = s.shadow := rfl
@[simp] theorem setCommand_operand (v : Word) (s : State) : (setCommand v s).operand = s.operand := rfl
@[simp] theorem setCommand_command (v : Word) (s : State) : (setCommand v s).command = v := rfl
@[simp] theorem setCommand_code (v : Word) (s : State) : (setCommand v s).code = s.code := rfl
@[simp] theorem setCommand_lastOp (v : Word) (s : State) : (setCommand v s).lastOp = s.lastOp := rfl
@[simp] theorem setCommand_rdata (v : Word) (s : State) : (setCommand v s).rdata = s.rdata := rfl
@[simp] theorem setCommand_straps (v : Word) (s : State) : (setCommand v s).straps = s.straps := rfl
@[simp] theorem setCommand_events (v : Word) (s : State) : (setCommand v s).events = s.events := rfl
@[simp] theorem setCommand_inputs (v : Word) (s : State) : (setCommand v s).inputs = s.inputs := rfl
@[simp] theorem setCommand_response (v : Word) (s : State) : (setCommand v s).response = s.response := rfl

/-! ### dropInput -/

@[simp] theorem dropInput_desc (s : State) : (dropInput s).desc = s.desc := rfl
@[simp] theorem dropInput_regSlot (s : State) : (dropInput s).regSlot = s.regSlot := rfl
@[simp] theorem dropInput_regCount (s : State) : (dropInput s).regCount = s.regCount := rfl
@[simp] theorem dropInput_shadow (s : State) : (dropInput s).shadow = s.shadow := rfl
@[simp] theorem dropInput_operand (s : State) : (dropInput s).operand = s.operand := rfl
@[simp] theorem dropInput_command (s : State) : (dropInput s).command = s.command := rfl
@[simp] theorem dropInput_code (s : State) : (dropInput s).code = s.code := rfl
@[simp] theorem dropInput_lastOp (s : State) : (dropInput s).lastOp = s.lastOp := rfl
@[simp] theorem dropInput_rdata (s : State) : (dropInput s).rdata = s.rdata := rfl
@[simp] theorem dropInput_straps (s : State) : (dropInput s).straps = s.straps := rfl
@[simp] theorem dropInput_events (s : State) : (dropInput s).events = s.events := rfl
@[simp] theorem dropInput_inputs (s : State) : (dropInput s).inputs = s.inputs.tail := rfl
@[simp] theorem dropInput_response (s : State) : (dropInput s).response = s.response := rfl

/-! ### platformReset -/

@[simp] theorem platformReset_desc (s : State) : (platformReset s).desc = List.replicate s.nDesc Desc.reset := rfl
@[simp] theorem platformReset_regSlot (s : State) : (platformReset s).regSlot = Vector.replicate 16 0 := rfl
@[simp] theorem platformReset_regCount (s : State) : (platformReset s).regCount = 0 := rfl
@[simp] theorem platformReset_shadow (s : State) : (platformReset s).shadow = List.replicate s.nTimer 0 := rfl
@[simp] theorem platformReset_operand (s : State) : (platformReset s).operand = 0 := rfl
@[simp] theorem platformReset_command (s : State) : (platformReset s).command = 0 := rfl
@[simp] theorem platformReset_code (s : State) : (platformReset s).code = .ok := rfl
@[simp] theorem platformReset_lastOp (s : State) : (platformReset s).lastOp = 0 := rfl
@[simp] theorem platformReset_rdata (s : State) : (platformReset s).rdata = 0 := rfl
@[simp] theorem platformReset_straps (s : State) : (platformReset s).straps = s.straps := rfl
@[simp] theorem platformReset_events (s : State) : (platformReset s).events = s.events := rfl
@[simp] theorem platformReset_inputs (s : State) : (platformReset s).inputs = s.inputs := rfl
@[simp] theorem platformReset_response (s : State) : (platformReset s).response = none := rfl

/-! ### Views -/

@[simp] theorem shadowAt_modDesc (i : DescIndex) (f : Desc → Desc) (s : State) (u : TimerIndex) :
    shadowAt (modDesc i f s) u = shadowAt s u := rfl
@[simp] theorem regList_modDesc (i : DescIndex) (f : Desc → Desc) (s : State) :
    regList (modDesc i f s) = regList s := rfl
@[simp] theorem registered_modDesc (i : DescIndex) (f : Desc → Desc) (s : State) (j : DescIndex) :
    registered (modDesc i f s) j = registered s j := rfl
@[simp] theorem registryFull_modDesc (i : DescIndex) (f : Desc → Desc) (s : State) :
    registryFull (modDesc i f s) = registryFull s := rfl
@[simp] theorem descAt_setShadow (t : TimerIndex) (r : Word) (s : State) (j : DescIndex) :
    descAt (setShadow t r s) j = descAt s j := rfl
@[simp] theorem regList_setShadow (t : TimerIndex) (r : Word) (s : State) :
    regList (setShadow t r s) = regList s := rfl
@[simp] theorem registered_setShadow (t : TimerIndex) (r : Word) (s : State) (j : DescIndex) :
    registered (setShadow t r s) j = registered s j := rfl
@[simp] theorem registryFull_setShadow (t : TimerIndex) (r : Word) (s : State) :
    registryFull (setShadow t r s) = registryFull s := rfl
@[simp] theorem present_setShadow (t : TimerIndex) (r : Word) (s : State) (j : DescIndex) :
    present (setShadow t r s) j = present s j := rfl
@[simp] theorem siblings_setShadow (t : TimerIndex) (r : Word) (s : State) (u : TimerIndex) :
    siblings (setShadow t r s) u = siblings s u := rfl
@[simp] theorem siblingEvent_setShadow (t : TimerIndex) (r : Word) (s : State) (u : TimerIndex) (y : Word) :
    siblingEvent (setShadow t r s) u y = siblingEvent s u y := rfl
@[simp] theorem descAt_setRdata (x : Word) (s : State) (j : DescIndex) :
    descAt (setRdata x s) j = descAt s j := rfl
@[simp] theorem shadowAt_setRdata (x : Word) (s : State) (u : TimerIndex) :
    shadowAt (setRdata x s) u = shadowAt s u := rfl
@[simp] theorem regList_setRdata (x : Word) (s : State) :
    regList (setRdata x s) = regList s := rfl
@[simp] theorem registered_setRdata (x : Word) (s : State) (j : DescIndex) :
    registered (setRdata x s) j = registered s j := rfl
@[simp] theorem registryFull_setRdata (x : Word) (s : State) :
    registryFull (setRdata x s) = registryFull s := rfl
@[simp] theorem present_setRdata (x : Word) (s : State) (j : DescIndex) :
    present (setRdata x s) j = present s j := rfl
@[simp] theorem siblings_setRdata (x : Word) (s : State) (u : TimerIndex) :
    siblings (setRdata x s) u = siblings s u := rfl
@[simp] theorem siblingEvent_setRdata (x : Word) (s : State) (u : TimerIndex) (y : Word) :
    siblingEvent (setRdata x s) u y = siblingEvent s u y := rfl
@[simp] theorem descAt_emitAll (es : List Event) (s : State) (j : DescIndex) :
    descAt (emitAll es s) j = descAt s j := rfl
@[simp] theorem shadowAt_emitAll (es : List Event) (s : State) (u : TimerIndex) :
    shadowAt (emitAll es s) u = shadowAt s u := rfl
@[simp] theorem regList_emitAll (es : List Event) (s : State) :
    regList (emitAll es s) = regList s := rfl
@[simp] theorem registered_emitAll (es : List Event) (s : State) (j : DescIndex) :
    registered (emitAll es s) j = registered s j := rfl
@[simp] theorem registryFull_emitAll (es : List Event) (s : State) :
    registryFull (emitAll es s) = registryFull s := rfl
@[simp] theorem present_emitAll (es : List Event) (s : State) (j : DescIndex) :
    present (emitAll es s) j = present s j := rfl
@[simp] theorem siblings_emitAll (es : List Event) (s : State) (u : TimerIndex) :
    siblings (emitAll es s) u = siblings s u := rfl
@[simp] theorem siblingEvent_emitAll (es : List Event) (s : State) (u : TimerIndex) (y : Word) :
    siblingEvent (emitAll es s) u y = siblingEvent s u y := rfl
@[simp] theorem descAt_emit (e : Event) (s : State) (j : DescIndex) :
    descAt (emit e s) j = descAt s j := rfl
@[simp] theorem shadowAt_emit (e : Event) (s : State) (u : TimerIndex) :
    shadowAt (emit e s) u = shadowAt s u := rfl
@[simp] theorem regList_emit (e : Event) (s : State) :
    regList (emit e s) = regList s := rfl
@[simp] theorem registered_emit (e : Event) (s : State) (j : DescIndex) :
    registered (emit e s) j = registered s j := rfl
@[simp] theorem registryFull_emit (e : Event) (s : State) :
    registryFull (emit e s) = registryFull s := rfl
@[simp] theorem present_emit (e : Event) (s : State) (j : DescIndex) :
    present (emit e s) j = present s j := rfl
@[simp] theorem siblings_emit (e : Event) (s : State) (u : TimerIndex) :
    siblings (emit e s) u = siblings s u := rfl
@[simp] theorem siblingEvent_emit (e : Event) (s : State) (u : TimerIndex) (y : Word) :
    siblingEvent (emit e s) u y = siblingEvent s u y := rfl
@[simp] theorem descAt_appendReg (i : DescIndex) (s : State) (j : DescIndex) :
    descAt (appendReg i s) j = descAt s j := rfl
@[simp] theorem shadowAt_appendReg (i : DescIndex) (s : State) (u : TimerIndex) :
    shadowAt (appendReg i s) u = shadowAt s u := rfl
@[simp] theorem present_appendReg (i : DescIndex) (s : State) (j : DescIndex) :
    present (appendReg i s) j = present s j := rfl
@[simp] theorem siblingEvent_appendReg (i : DescIndex) (s : State) (u : TimerIndex) (y : Word) :
    siblingEvent (appendReg i s) u y = siblingEvent s u y := rfl
@[simp] theorem descAt_respond (r : Response) (s : State) (j : DescIndex) :
    descAt (respond r s) j = descAt s j := rfl
@[simp] theorem shadowAt_respond (r : Response) (s : State) (u : TimerIndex) :
    shadowAt (respond r s) u = shadowAt s u := rfl
@[simp] theorem regList_respond (r : Response) (s : State) :
    regList (respond r s) = regList s := rfl
@[simp] theorem registered_respond (r : Response) (s : State) (j : DescIndex) :
    registered (respond r s) j = registered s j := rfl
@[simp] theorem registryFull_respond (r : Response) (s : State) :
    registryFull (respond r s) = registryFull s := rfl
@[simp] theorem present_respond (r : Response) (s : State) (j : DescIndex) :
    present (respond r s) j = present s j := rfl
@[simp] theorem siblings_respond (r : Response) (s : State) (u : TimerIndex) :
    siblings (respond r s) u = siblings s u := rfl
@[simp] theorem siblingEvent_respond (r : Response) (s : State) (u : TimerIndex) (y : Word) :
    siblingEvent (respond r s) u y = siblingEvent s u y := rfl
@[simp] theorem descAt_setOperand (v : Word) (s : State) (j : DescIndex) :
    descAt (setOperand v s) j = descAt s j := rfl
@[simp] theorem shadowAt_setOperand (v : Word) (s : State) (u : TimerIndex) :
    shadowAt (setOperand v s) u = shadowAt s u := rfl
@[simp] theorem regList_setOperand (v : Word) (s : State) :
    regList (setOperand v s) = regList s := rfl
@[simp] theorem registered_setOperand (v : Word) (s : State) (j : DescIndex) :
    registered (setOperand v s) j = registered s j := rfl
@[simp] theorem registryFull_setOperand (v : Word) (s : State) :
    registryFull (setOperand v s) = registryFull s := rfl
@[simp] theorem present_setOperand (v : Word) (s : State) (j : DescIndex) :
    present (setOperand v s) j = present s j := rfl
@[simp] theorem siblings_setOperand (v : Word) (s : State) (u : TimerIndex) :
    siblings (setOperand v s) u = siblings s u := rfl
@[simp] theorem siblingEvent_setOperand (v : Word) (s : State) (u : TimerIndex) (y : Word) :
    siblingEvent (setOperand v s) u y = siblingEvent s u y := rfl
@[simp] theorem descAt_setCommand (v : Word) (s : State) (j : DescIndex) :
    descAt (setCommand v s) j = descAt s j := rfl
@[simp] theorem shadowAt_setCommand (v : Word) (s : State) (u : TimerIndex) :
    shadowAt (setCommand v s) u = shadowAt s u := rfl
@[simp] theorem regList_setCommand (v : Word) (s : State) :
    regList (setCommand v s) = regList s := rfl
@[simp] theorem registered_setCommand (v : Word) (s : State) (j : DescIndex) :
    registered (setCommand v s) j = registered s j := rfl
@[simp] theorem registryFull_setCommand (v : Word) (s : State) :
    registryFull (setCommand v s) = registryFull s := rfl
@[simp] theorem present_setCommand (v : Word) (s : State) (j : DescIndex) :
    present (setCommand v s) j = present s j := rfl
@[simp] theorem siblings_setCommand (v : Word) (s : State) (u : TimerIndex) :
    siblings (setCommand v s) u = siblings s u := rfl
@[simp] theorem siblingEvent_setCommand (v : Word) (s : State) (u : TimerIndex) (y : Word) :
    siblingEvent (setCommand v s) u y = siblingEvent s u y := rfl
@[simp] theorem descAt_dropInput (s : State) (j : DescIndex) :
    descAt (dropInput s) j = descAt s j := rfl
@[simp] theorem shadowAt_dropInput (s : State) (u : TimerIndex) :
    shadowAt (dropInput s) u = shadowAt s u := rfl
@[simp] theorem regList_dropInput (s : State) :
    regList (dropInput s) = regList s := rfl
@[simp] theorem registered_dropInput (s : State) (j : DescIndex) :
    registered (dropInput s) j = registered s j := rfl
@[simp] theorem registryFull_dropInput (s : State) :
    registryFull (dropInput s) = registryFull s := rfl
@[simp] theorem present_dropInput (s : State) (j : DescIndex) :
    present (dropInput s) j = present s j := rfl
@[simp] theorem siblings_dropInput (s : State) (u : TimerIndex) :
    siblings (dropInput s) u = siblings s u := rfl
@[simp] theorem siblingEvent_dropInput (s : State) (u : TimerIndex) (y : Word) :
    siblingEvent (dropInput s) u y = siblingEvent s u y := rfl

end Sys2Proof.Machine
end

