-- ==== Sys2Proof/Laws/Ops.lean ====
section
/-! SUPPORT. For each shared operation, what it can do, said once. -/

namespace Sys2Proof.Machine

/-! ### Descriptors -/

theorem nDesc_modDesc (i : DescIndex) (f : Desc → Desc) (s : State) : (modDesc i f s).nDesc = s.nDesc := by
  simp [State.nDesc]

theorem nTimer_setShadow (t : TimerIndex) (r : Word) (s : State) : (setShadow t r s).nTimer = s.nTimer := by
  simp [State.nTimer]

theorem descAt_modDesc (i j : DescIndex) (f : Desc → Desc) (s : State) :
    descAt (modDesc i f s) j = if i = j ∧ i.toNat < s.nDesc then f (descAt s i) else descAt s j := by
  simp only [descAt, modDesc_desc, List.getD_eq_getElem?_getD, List.getElem?_modify]
  by_cases hij : i = j
  · subst hij
    by_cases hi : i.toNat < s.desc.length
    · simp [hi]
    · simp [hi]
  · have : i.toNat ≠ j.toNat := fun h => hij (BitVec.eq_of_toNat_eq h)
    simp [hij, this]

theorem descAt_modDesc_self {i : DescIndex} {s : State} (h : i.toNat < s.nDesc) (f : Desc → Desc) :
    descAt (modDesc i f s) i = f (descAt s i) := by
  simp [descAt_modDesc, h]

theorem descAt_modDesc_of_ne {i j : DescIndex} (h : i ≠ j) (f : Desc → Desc) (s : State) :
    descAt (modDesc i f s) j = descAt s j := by
  simp [descAt_modDesc, h]

/-- A field that `f` leaves alone reads as before in every slot. -/
theorem descAt_modDesc_field {α : Type} (g : Desc → α) {f : Desc → Desc} (hf : ∀ d, g (f d) = g d)
    (i j : DescIndex) (s : State) : g (descAt (modDesc i f s) j) = g (descAt s j) := by
  rw [descAt_modDesc]
  split
  · next h => rw [hf, h.1]
  · rfl

theorem modDesc_modDesc (i : DescIndex) (f g : Desc → Desc) (s : State) :
    modDesc i f (modDesc i g s) = modDesc i (f ∘ g) s := by
  simp [modDesc, List.modify_modify_eq]

theorem modDesc_congr {f g : Desc → Desc} (h : ∀ d, f d = g d) (i : DescIndex) (s : State) :
    modDesc i f s = modDesc i g s := by
  rw [funext h]

theorem mem_desc_iff (s : State) (d : Desc) : d ∈ s.desc ↔ ∃ k, ∃ h : k < s.nDesc, s.desc[k] = d :=
  List.mem_iff_getElem

/-- Every slot of the changed table is an old slot or the changed one. -/
theorem mem_desc_modDesc {i : DescIndex} {f : Desc → Desc} {s : State} {d : Desc} (h : d ∈ (modDesc i f s).desc) :
    d ∈ s.desc ∨ (i.toNat < s.nDesc ∧ d = f (descAt s i)) := by
  simp only [modDesc_desc, List.mem_iff_getElem, List.length_modify, List.getElem_modify] at h
  obtain ⟨k, hk, rfl⟩ := h
  split
  · next hik =>
    subst hik
    exact .inr ⟨hk, by simp [descAt, hk]⟩
  · exact .inl (List.getElem_mem hk)

theorem descAt_mem {s : State} {i : DescIndex} (h : i.toNat < s.nDesc) : descAt s i ∈ s.desc := by
  simp [descAt, h]

/-! ### present -/

theorem present_iff (s : State) (i : DescIndex) :
    present s i = true ↔ i.toNat < s.nDesc ∧ (descAt s i).cfg = true := by
  simp [present]

theorem lt_of_present {s : State} {i : DescIndex} (h : present s i = true) : i.toNat < s.nDesc :=
  ((present_iff s i).1 h).1

theorem present_modDesc {f : Desc → Desc} (hf : ∀ d, (f d).cfg = d.cfg) (i j : DescIndex) (s : State) :
    present (modDesc i f s) j = present s j := by
  simp only [present, nDesc_modDesc, descAt_modDesc_field (·.cfg) hf]

/-! ### Shadows -/

theorem shadowAt_setShadow (t u : TimerIndex) (r : Word) (s : State) :
    shadowAt (setShadow t r s) u = if t = u ∧ t.toNat < s.nTimer then r else shadowAt s u := by
  simp only [shadowAt, setShadow_shadow, List.getD_eq_getElem?_getD, List.getElem?_set]
  by_cases htu : t = u
  · subst htu
    by_cases ht : t.toNat < s.shadow.length
    · simp [ht]
    · simp [ht]
  · have : t.toNat ≠ u.toNat := fun h => htu (BitVec.eq_of_toNat_eq h)
    simp [htu, this]

theorem shadowAt_setShadow_self {t : TimerIndex} {s : State} (h : t.toNat < s.nTimer) (r : Word) :
    shadowAt (setShadow t r s) t = r := by
  simp [shadowAt_setShadow, h]

theorem shadowAt_setShadow_of_ne {t u : TimerIndex} (h : t ≠ u) (r : Word) (s : State) :
    shadowAt (setShadow t r s) u = shadowAt s u := by
  simp [shadowAt_setShadow, h]

/-! ### Registry -/

theorem registered_iff (s : State) (i : DescIndex) : registered s i = true ↔ i ∈ regList s := by
  simp [registered]

theorem registryFull_iff (s : State) : registryFull s = true ↔ s.regCount.toNat = 16 := by
  simp [registryFull]

theorem length_regList_le (s : State) : (regList s).length ≤ 16 := by
  simp only [regList, List.length_take, Vector.length_toList]
  omega

theorem length_regList {s : State} (h : s.regCount.toNat ≤ 16) : (regList s).length = s.regCount.toNat := by
  simp only [regList, List.length_take, Vector.length_toList]
  omega

theorem regCount_appendReg {s : State} (h : s.regCount.toNat < 16) (i : DescIndex) :
    (appendReg i s).regCount.toNat = s.regCount.toNat + 1 := by
  simp only [appendReg_regCount, BitVec.toNat_add, BitVec.reduceToNat]
  omega

theorem toList_appendReg (i : DescIndex) (s : State) :
    (appendReg i s).regSlot.toList = s.regSlot.toList.set s.regCount.toNat i := by
  rw [appendReg_regSlot, Vector.toList_setIfInBounds]

/-- Below capacity an insertion puts the index at the end of the registered ones. -/
theorem regList_appendReg {s : State} (h : s.regCount.toNat < 16) (i : DescIndex) :
    regList (appendReg i s) = regList s ++ [i] := by
  unfold regList
  rw [toList_appendReg, regCount_appendReg h, List.take_add_one, List.take_set_of_le (le_refl _)]
  simp [h]

/-- The positions after the inserted one are as before. -/
theorem drop_appendReg {s : State} (i : DescIndex) {n : Nat}
    (hn : s.regCount.toNat < n) : (appendReg i s).regSlot.toList.drop n = s.regSlot.toList.drop n := by
  rw [toList_appendReg, List.drop_set_of_lt hn]

/-- `Register` can answer OK with nothing changed, CAPACITY_EXCEEDED with nothing changed, or OK with the insertion. -/
theorem register_cases (i : DescIndex) (s : State) :
    (i ∈ regList s ∧ register i s = (.ok, s)) ∨
    (i ∉ regList s ∧ s.regCount.toNat = 16 ∧ register i s = (.capacityExceeded, s)) ∨
    (i ∉ regList s ∧ s.regCount.toNat ≠ 16 ∧ register i s = (.ok, appendReg i s)) := by
  by_cases hr : i ∈ regList s
  · exact .inl ⟨hr, by simp [register, registered, hr, done]⟩
  · by_cases hf : s.regCount.toNat = 16
    · exact .inr (.inl ⟨hr, hf, by simp [register, registered, hr, registryFull, hf, raise]⟩)
    · exact .inr (.inr ⟨hr, hf, by simp [register, registered, hr, registryFull, hf, done]⟩)

/-! ### Siblings -/

theorem mem_siblings (s : State) (t : TimerIndex) (j : DescIndex) :
    j ∈ siblings s t ↔ j ∈ regList s ∧ (descAt s j).tmr = t ∧ (descAt s j).state = .active := by
  simp [siblings]

/-- A change that leaves timers and run states alone leaves the siblings alone. -/
theorem siblings_modDesc {f : Desc → Desc} (ht : ∀ d, (f d).tmr = d.tmr) (hs : ∀ d, (f d).state = d.state)
    (i : DescIndex) (s : State) (t : TimerIndex) : siblings (modDesc i f s) t = siblings s t := by
  unfold siblings
  rw [regList_modDesc]
  refine List.filter_congr fun j _ => ?_
  rw [descAt_modDesc_field (·.tmr) ht, descAt_modDesc_field (·.state) hs]

/-- A change of a descriptor that is not a sibling leaves every sibling's event alone. -/
theorem siblingEvents_modDesc_of_inactive {i : DescIndex} {s : State} (h : (descAt s i).state = .inactive)
    (f : Desc → Desc) (t : TimerIndex) (r : Word) :
    (siblings s t).map (siblingEvent (modDesc i f s) t r) = (siblings s t).map (siblingEvent s t r) := by
  refine List.map_congr_left fun j hj => ?_
  have hne : i ≠ j := by
    rintro rfl
    simp [mem_siblings, h] at hj
  simp [siblingEvent, descAt_modDesc_of_ne hne]

/-- A change that leaves channels and duties alone leaves every sibling's event alone. -/
theorem siblingEvent_modDesc {f : Desc → Desc} (hc : ∀ d, (f d).ch = d.ch) (hd : ∀ d, (f d).duty = d.duty)
    (i : DescIndex) (s : State) (t : TimerIndex) (r : Word) :
    siblingEvent (modDesc i f s) t r = siblingEvent s t r := by
  funext j
  simp only [siblingEvent, descAt_modDesc_field (·.ch) hc, descAt_modDesc_field (·.duty) hd]

/-! ### Fan-out -/

/-- What `ApplyReload` does: the shadow, and its events in order. -/
theorem applyReload_eq (t : TimerIndex) (r : Word) (s : State) :
    applyReload t r s = { s with
      shadow := s.shadow.set t.toNat r
      events := s.events ++ ([.csEnter, .wrReload t r] ++ (siblings s t).map (siblingEvent s t r) ++
        [.csExit, .barrier]) } := by
  simp [applyReload, emit, emitAll, setShadow, siblings, siblingEvent, descAt, regList]

/-! ### Ends of commands -/

/-- Every command answers a next state. -/
theorem finish_next (op : BitVec 4) (r : Result) : finish op r = .next { r.2 with code := r.1, lastOp := op } := rfl

/-- The code and state a command's `Run` ends with. -/
def runOf (i : Instr) (s : State) : Result :=
  match i with
  | .config d t c v => runConfig d t c v s
  | .init d _ => runInit d s
  | .deinit d _ => runDeinit d s
  | .start d _ => runStart d s
  | .stop d _ => runStop d s
  | .setper d v => runSetper d v s
  | .setduty d f => runSetduty d f s
  | .setfreq d v => runSetfreq d v s
  | .rddesc d x => runRddesc d x s
  | .rdeng x => runRdeng x s

/-- Every command is its `Run` and the two STATUS writes. -/
theorem exec_eq_finish (i : Instr) (s : State) : exec i s = finish (opOf i) (runOf i s) := by
  cases i <;> rfl

/-- What a command that answers `next t` has done. -/
theorem exec_next {i : Instr} {s t : State} (h : exec i s = .next t) :
    t = { (runOf i s).2 with code := (runOf i s).1, lastOp := opOf i } := by
  rw [exec_eq_finish, finish_next] at h
  injection h with h
  exact h.symm

/-- The part of SETDUTY after the conversion can refuse, skip, or write the duty and one compare. -/
theorem applyDuty_cases (i : DescIndex) (p : Int) (s : State) :
    ((p < 0 ∨ 1000 < p) ∧ applyDuty i p s = raise .outOfRange s) ∨
    ((0 ≤ p ∧ p ≤ 1000) ∧ p = (descAt s i).duty.toNat ∧ applyDuty i p s = skip s) ∨
    ((0 ≤ p ∧ p ≤ 1000) ∧ p ≠ (descAt s i).duty.toNat ∧
      applyDuty i p s = done (emitAll
        [.wrCompare (descAt s i).tmr (descAt s i).ch (compareValue p.toNat (shadowAt s (descAt s i).tmr)), .barrier]
        (modDesc i (withDuty (BitVec.ofInt 10 p)) s))) := by
  by_cases h1 : p < 0 ∨ 1000 < p
  · exact .inl ⟨h1, by simp [applyDuty, h1]⟩
  · have h2 : 0 ≤ p ∧ p ≤ 1000 := by omega
    by_cases h3 : p = (descAt s i).duty.toNat
    · exact .inr (.inl ⟨h2, h3, by simp only [applyDuty]; rw [if_neg (by simpa using h1), if_pos h3]⟩)
    · refine .inr (.inr ⟨h2, h3, ?_⟩)
      simp only [applyDuty]
      rw [if_neg (by simpa using h1), if_neg h3]
      simp only [descAt_modDesc_field (·.tmr) (f := withDuty (BitVec.ofInt 10 p)) (fun _ => rfl),
        descAt_modDesc_field (·.ch) (f := withDuty (BitVec.ofInt 10 p)) (fun _ => rfl), shadowAt_modDesc]
      simp [emit, emitAll]

/-- The change of period that SETPER and SETFREQ share, over the state before it. -/
theorem changePeriod_eq (i : DescIndex) (v : Word) (s : State) :
    changePeriod i v s =
      modDesc i (withPeriod v) (applyReload (descAt s i).tmr (reloadValue v.toNat (descAt s i).cs.toNat) s) := by
  have h : changePeriod i v s =
      applyReload (descAt (modDesc i (withPeriod v) s) i).tmr
        (reloadValue v.toNat (descAt (modDesc i (withPeriod v) s) i).cs.toNat) (modDesc i (withPeriod v) s) := rfl
  rw [h, applyReload_eq, applyReload_eq,
    descAt_modDesc_field (·.tmr) (f := withPeriod v) (fun _ => rfl),
    descAt_modDesc_field (·.cs) (f := withPeriod v) (fun _ => rfl),
    siblings_modDesc (f := withPeriod v) (fun _ => rfl) (fun _ => rfl),
    siblingEvent_modDesc (f := withPeriod v) (fun _ => rfl) (fun _ => rfl)]
  rfl

/-- Four lanes are a number in base 256, the first lane least significant. -/
theorem toNat_wordOfLanes (a b c d : Byte) :
    (wordOfLanes [a, b, c, d]).toNat = a.toNat + 2 ^ 8 * b.toNat + 2 ^ 16 * c.toNat + 2 ^ 24 * d.toNat := by
  simp [wordOfLanes, numberOfLanes]
  omega

/-- A register value survives the trip over the byte lanes. -/
theorem wordOfLanes_lanesOfWord (w : Word) : wordOfLanes (lanesOfWord w) = w := by
  apply BitVec.eq_of_toNat_eq
  have := w.isLt
  simp [wordOfLanes, lanesOfWord, lanesOf, numberOfLanes]
  omega

theorem length_lanesOfWord (w : Word) : (lanesOfWord w).length = 4 := rfl

end Sys2Proof.Machine
end

