-- ==== Sys2Proof/Laws/Bus.lean ====
section
/-! SUPPORT. What a step can do, said once, and the window's address decoding. -/

namespace Sys2Proof.Machine

theorem step_eq (s : State) : step s = nextInput s := rfl

/-- With no move to come nothing changes. -/
theorem step_idle {s : State} (h : s.inputs = []) : step s = .next s := by simp [step, nextInput, h]

/-- With a move to come, the step is that move. -/
theorem step_input {s : State} {x : Input} {rest : List Input} (h : s.inputs = x :: rest) :
    step s = takeInput x { s with inputs := rest } := by
  simp [step, nextInput, h, dropInput]

/-- The register of an accepted access. -/
theorem windowReg_offset (base : Nat) (r : WindowReg) : windowReg base (base + windowOffset r) 4 = some r := by
  cases r <;> simp [windowReg, windowOffset]

/-- An accepted access is 4 bytes at the register's offset. -/
theorem windowReg_eq_some {base addr n : Nat} {r : WindowReg} (h : windowReg base addr n = some r) :
    n = 4 ∧ addr = base + windowOffset r := by
  unfold windowReg at h
  split at h
  · cases h
  · next hn =>
    refine ⟨by simpa using hn, ?_⟩
    repeat' split at h
    all_goals first
      | (injection h with h; subst h; assumption)
      | cases h

/-- An accepted access touches the window. -/
theorem touchesWindow_offset (base : Nat) (r : WindowReg) : touchesWindow base (base + windowOffset r) 4 = true := by
  cases r <;> exact decide_eq_true (by simp only [windowOffset]; omega)

/-- A write of four lanes at a register's offset is the write of that register. -/
theorem memWrite_offset {s : State} {lanes : List Byte} (h : lanes.length = 4) (r : WindowReg) :
    memWrite (s.straps.engineBase + windowOffset r) lanes s =
      respondAfter .writeDone (writeReg (wordOfLanes lanes) s r) := by
  simp [memWrite, h, touchesWindow_offset, windowReg_offset]

/-- A 4-byte read at a register's offset answers its value. -/
theorem memRead_offset (s : State) (r : WindowReg) :
    memRead (s.straps.engineBase + windowOffset r) 4 s =
      .next (respond (.readDone (lanesOfWord (readReg s r))) s) := by
  simp [memRead, touchesWindow_offset, windowReg_offset]

/-- Executing a word is its command's meaning, or the status of an illegal command. -/
theorem execute_cases (w : CmdWord) (s : State) :
    (∃ i, decode w = .ok i ∧ execute w s = exec i s) ∨
    (∃ e, decode w = .error e ∧
      execute w s = .next { s with code := .illegalCommand, lastOp := w.extractLsb' 60 4 }) := by
  cases h : decode w with
  | ok i => exact .inl ⟨i, rfl, by simp [execute, h]⟩
  | error e => exact .inr ⟨e, rfl, by simp [execute, h, illegalCommand, finish, raise]⟩

/-- Every host write ends in one of: not selected, a bus error, OPERAND, nothing, or a command executed. -/
theorem memWrite_cases (addr : Nat) (lanes : List Byte) (s : State) :
    (∃ r, memWrite addr lanes s = .next (respond r s)) ∨
    memWrite addr lanes s = .next (respond .writeDone (setOperand (wordOfLanes lanes) s)) ∨
    memWrite addr lanes s =
      respondAfter .writeDone
        (execute (commandWord (wordOfLanes lanes) s.operand) (setCommand (wordOfLanes lanes) s)) := by
  unfold memWrite
  split
  · exact .inl ⟨_, rfl⟩
  · split
    · exact .inl ⟨_, rfl⟩
    · next r _ =>
      cases r
      · exact .inr (.inl rfl)
      · exact .inr (.inr rfl)
      · exact .inl ⟨_, rfl⟩
      · exact .inl ⟨_, rfl⟩

/-- Every host read only answers. -/
theorem memRead_cases (addr n : Nat) (s : State) : ∃ r, memRead addr n s = .next (respond r s) := by
  unfold memRead
  split
  · exact ⟨_, rfl⟩
  · split <;> exact ⟨_, rfl⟩

/-- What a step that answers `next t` can have done. -/
theorem step_cases {s t : State} (h : step s = .next t) :
    (s.inputs = [] ∧ t = s) ∨
    (∃ rest r, t = { s with inputs := rest, response := some r }) ∨
    (∃ rest v, t = { s with inputs := rest, operand := v, response := some .writeDone }) ∨
    (∃ rest v i u, exec i { s with inputs := rest, command := v } = .next u ∧
      t = { u with response := some .writeDone }) ∨
    (∃ rest v op, t = { s with
      inputs := rest, command := v, code := .illegalCommand, lastOp := op, response := some .writeDone }) ∨
    (∃ rest, t = platformReset { s with inputs := rest }) := by
  cases hi : s.inputs with
  | nil =>
    rw [step_idle hi] at h
    injection h with h
    exact .inl ⟨rfl, h.symm⟩
  | cons x rest =>
    rw [step_input hi] at h
    cases x with
    | read addr n =>
      obtain ⟨r, hr⟩ := memRead_cases addr n { s with inputs := rest }
      rw [takeInput, hr] at h
      injection h with h
      exact .inr (.inl ⟨rest, r, h.symm⟩)
    | reset =>
      rw [takeInput] at h
      injection h with h
      exact .inr (.inr (.inr (.inr (.inr ⟨rest, h.symm⟩))))
    | write addr lanes =>
      rw [takeInput] at h
      obtain ⟨r, hr⟩ | hr | hr := memWrite_cases addr lanes { s with inputs := rest }
      · rw [hr] at h
        injection h with h
        exact .inr (.inl ⟨rest, r, h.symm⟩)
      · rw [hr] at h
        injection h with h
        exact .inr (.inr (.inl ⟨rest, _, h.symm⟩))
      · rw [hr] at h
        obtain ⟨i, _, he⟩ | ⟨e, _, he⟩ := execute_cases (commandWord (wordOfLanes lanes) s.operand)
          (setCommand (wordOfLanes lanes) { s with inputs := rest })
        · rw [he] at h
          cases hx : exec i (setCommand (wordOfLanes lanes) { s with inputs := rest }) with
          | next u =>
            rw [hx] at h
            injection h with h
            exact .inr (.inr (.inr (.inl ⟨rest, wordOfLanes lanes, i, u, hx, h.symm⟩)))
          | fault e => cases e
          | refused e =>
            rw [exec_eq_finish, finish_next] at hx
            cases hx
        · rw [he] at h
          injection h with h
          exact .inr (.inr (.inr (.inr (.inl ⟨rest, _, _, h.symm⟩))))

end Sys2Proof.Machine
end

