-- ==== Sys2Proof/Laws/PerInstr.lean ====
section
/-! SUPPORT. The fields of packed and encoded words. -/

namespace Sys2Proof

/-- The bits of a packed word, field by field. -/
theorem getLsbD_packFields (f : Cmd64) (k : Nat) :
    (packFields f).getLsbD k =
      if k < 32 then f.operand.getLsbD k
      else if k < 35 then f.ch.getLsbD (k - 32)
      else if k < 40 then f.rsv2.getLsbD (k - 35)
      else if k < 48 then f.tmr.getLsbD (k - 40)
      else if k < 56 then f.desc.getLsbD (k - 48)
      else if k < 60 then f.rsv1.getLsbD (k - 56)
      else f.op.getLsbD (k - 60) := by
  have h : (packFields f).getLsbD k =
      (f.op ++ f.rsv1 ++ f.desc ++ f.tmr ++ f.rsv2 ++ f.ch ++ f.operand).getLsbD k := rfl
  rw [h]
  simp only [BitVec.getLsbD_append]
  repeat' split
  all_goals first
    | omega
    | rfl

/-- Every field of a packed word reads back. -/
theorem fieldsOf_packFields (f : Cmd64) : fieldsOf (packFields f) = f := by
  obtain ⟨op, rsv1, desc, tmr, rsv2, ch, operand⟩ := f
  simp only [fieldsOf, Cmd64.mk.injEq]
  refine ⟨?_, ?_, ?_, ?_, ?_, ?_, ?_⟩ <;>
  · apply BitVec.eq_of_getLsbD_eq
    intro k hk
    rw [BitVec.getLsbD_extractLsb', getLsbD_packFields]
    repeat' split
    all_goals first
      | omega
      | (simp only [hk, decide_true, Bool.true_and]; congr 1; omega)

/-- Every word is its fields packed. -/
theorem packFields_fieldsOf (w : CmdWord) : packFields (fieldsOf w) = w := by
  apply BitVec.eq_of_getLsbD_eq
  intro k hk
  rw [getLsbD_packFields]
  simp only [fieldsOf, BitVec.getLsbD_extractLsb']
  repeat' split
  all_goals first
    | omega
    | (rw [decide_eq_true (by omega), Bool.true_and]; congr 1; omega)

/-- The legal words, condition by condition (30_encoding.md R73, R74). -/
theorem wellFormed_iff (f : Cmd64) : f.WellFormed ↔
    (0x1 ≤ f.op.toNat ∧ f.op.toNat ≤ 0xA) ∧ (f.rsv1 = 0 ∧ f.rsv2 = 0) ∧ (f.op ≠ 0x1 → f.tmr = 0 ∧ f.ch = 0) ∧
    (f.op = 0xA → f.desc = 0) := Iff.rfl

/-- The fields of an encoded command are those the assembler sets. -/
theorem fieldsOf_encode (i : Instr) : fieldsOf (encode i) = fieldsOfInstr i := fieldsOf_packFields _

end Sys2Proof

namespace Sys2Proof.Laws.LegalWord

open Sys2Proof

/-- The word of a command is a legal one (30_encoding.md R73, R74). -/
def Statement (i : Instr) : Prop := (fieldsOf (encode i)).WellFormed

theorem config (d : DescIndex) (t : TimerIndex) (c : Channel) (v : Word) : Statement (.config d t c v) := by
  simp [Statement, fieldsOf_encode, fieldsOfInstr, wellFormed_iff]
theorem init (d : DescIndex) (v : Word) : Statement (.init d v) := by
  simp [Statement, fieldsOf_encode, fieldsOfInstr, wellFormed_iff]
theorem deinit (d : DescIndex) (v : Word) : Statement (.deinit d v) := by
  simp [Statement, fieldsOf_encode, fieldsOfInstr, wellFormed_iff]
theorem start (d : DescIndex) (v : Word) : Statement (.start d v) := by
  simp [Statement, fieldsOf_encode, fieldsOfInstr, wellFormed_iff]
theorem stop (d : DescIndex) (v : Word) : Statement (.stop d v) := by
  simp [Statement, fieldsOf_encode, fieldsOfInstr, wellFormed_iff]
theorem setper (d : DescIndex) (v : Word) : Statement (.setper d v) := by
  simp [Statement, fieldsOf_encode, fieldsOfInstr, wellFormed_iff]
theorem setduty (d : DescIndex) (v : Word) : Statement (.setduty d v) := by
  simp [Statement, fieldsOf_encode, fieldsOfInstr, wellFormed_iff]
theorem setfreq (d : DescIndex) (v : Word) : Statement (.setfreq d v) := by
  simp [Statement, fieldsOf_encode, fieldsOfInstr, wellFormed_iff]
theorem rddesc (d : DescIndex) (v : Word) : Statement (.rddesc d v) := by
  simp [Statement, fieldsOf_encode, fieldsOfInstr, wellFormed_iff]
theorem rdeng (v : Word) : Statement (.rdeng v) := by simp [Statement, fieldsOf_encode, fieldsOfInstr, wellFormed_iff]

end Sys2Proof.Laws.LegalWord
end

