-- ==== Sys2Proof/Laws/Platform.lean ====
section
/-! SUPPORT. What performing events does to the platform, said once. -/

namespace Sys2Proof.Machine

@[simp] theorem performAll_nil (hook : HookEffect) (w : Nat) (P : Platform) : performAll hook w [] P = P := rfl

@[simp] theorem performAll_cons (hook : HookEffect) (w : Nat) (e : Event) (es : List Event) (P : Platform) :
    performAll hook w (e :: es) P = performAll hook w es (perform hook w e P) := rfl

theorem performAll_append (hook : HookEffect) (w : Nat) (as bs : List Event) (P : Platform) :
    performAll hook w (as ++ bs) P = performAll hook w bs (performAll hook w as P) :=
  List.foldl_append

@[simp] theorem perform_timers (hook : HookEffect) (w : Nat) (e : Event) (P : Platform) :
    (perform hook w e P).timers = performAtTimers hook w P.performed e P.timers := by
  cases e <;> rfl

@[simp] theorem perform_performed (hook : HookEffect) (w : Nat) (e : Event) (P : Platform) :
    (perform hook w e P).performed = P.performed + 1 := by
  cases e <;> rfl

@[simp] theorem observerViews_nil (hook : HookEffect) (w : Nat) (P : Platform) :
    observerViews hook w [] P = visible P := rfl

@[simp] theorem observerViews_cons (hook : HookEffect) (w : Nat) (e : Event) (es : List Event) (P : Platform) :
    observerViews hook w (e :: es) P = visible P ++ observerViews hook w es (perform hook w e P) := rfl

theorem toNat_truncTimer (w : Nat) (v : Word) : (truncTimer w v).toNat = v.toNat % 2 ^ w := by
  have := Nat.mod_le v.toNat (2 ^ w)
  simp only [truncTimer, BitVec.toNat_ofNat]
  omega

/-- A value that fits the timer is kept whole. -/
theorem truncTimer_of_lt {w : Nat} {v : Word} (h : v.toNat < 2 ^ w) : truncTimer w v = v :=
  BitVec.eq_of_toNat_eq (by rw [toNat_truncTimer, Nat.mod_eq_of_lt h])

/-- No event adds or removes a timer. -/
theorem length_performAtTimers (hook : HookEffect) (w n : Nat) (e : Event) (T : List TimerRegs) :
    (performAtTimers hook w n e T).length = T.length := by
  cases e <;> simp [performAtTimers]

theorem readCmp_writeCmp (ch ch' : Channel) (c : Word) (R : TimerRegs) :
    readCmp ch' (writeCmp ch c R) =
      if ch = ch' ∧ ch ≠ 0 ∧ ch.toNat ≤ 5 then some c else readCmp ch' R := by
  by_cases h0 : ch = 0
  · simp [writeCmp, h0]
  · by_cases h0' : ch' = 0
    · simp only [readCmp, h0', if_true]
      rw [if_neg]
      rintro ⟨h, h', -⟩
      exact h' h
    · have hp : 1 ≤ ch.toNat := by
        rcases Nat.eq_zero_or_pos ch.toNat with h | h
        · exact absurd (BitVec.eq_of_toNat_eq h) h0
        · exact h
      have hp' : 1 ≤ ch'.toNat := by
        rcases Nat.eq_zero_or_pos ch'.toNat with h | h
        · exact absurd (BitVec.eq_of_toNat_eq h) h0'
        · exact h
      simp only [readCmp, h0', if_false, writeCmp, h0, Vector.getElem?_setIfInBounds]
      by_cases hc : ch = ch'
      · subst hc
        by_cases h5 : ch.toNat ≤ 5
        · have : ch.toNat - 1 < 5 := by omega
          simp [this, h5, show ¬ ch = 0#3 from h0]
        · have : ¬ ch.toNat - 1 < 5 := by omega
          simp [this, h5]
      · have : ch.toNat - 1 ≠ ch'.toNat - 1 := fun h => hc (BitVec.eq_of_toNat_eq (by omega))
        simp [this, hc]

@[simp] theorem writeCmp_reload (ch : Channel) (c : Word) (R : TimerRegs) : (writeCmp ch c R).reload = R.reload := by
  unfold writeCmp
  split <;> rfl

@[simp] theorem writeGenerating_reload (ch : Channel) (g : Bool) (R : TimerRegs) :
    (writeGenerating ch g R).reload = R.reload := by
  unfold writeGenerating
  split <;> rfl

@[simp] theorem writeGenerating_cmp (ch : Channel) (g : Bool) (R : TimerRegs) :
    (writeGenerating ch g R).cmp = R.cmp := by
  unfold writeGenerating
  split <;> rfl

end Sys2Proof.Machine
end

