-- ==== Sys2Proof/Tests/Slice0.lean ====
section
/-! SUPPORT. Small tests. Every expected value is a vector (V, B, W) of 95_test_vectors.md or is worked out by hand from
the rule the test names. -/

namespace Sys2Proof.Tests

open Sys2Proof Sys2Proof.Machine Sys2Proof.Claims

/-! ### WellFormed: one ill-formed term for each check -/

theorem test_wf_accepts_config : (fieldsOf 0x1003010200000048).WellFormed := by decide
theorem test_wf_refuses_op_zero : ¬ (fieldsOf 0x0000000000000000).OpLegal := by decide
theorem test_wf_refuses_op_b : ¬ (fieldsOf 0xB000000000000000).OpLegal := by decide
theorem test_wf_refuses_rsv1 : ¬ (fieldsOf 0x1200000100000001).ReservedZero := by decide
theorem test_wf_refuses_rsv2 : ¬ (fieldsOf 0x1000000900000001).ReservedZero := by decide
theorem test_wf_refuses_stray_timer : ¬ (fieldsOf 0x2000010000000000).TimerChannelZero := by decide
theorem test_wf_refuses_stray_channel : ¬ (fieldsOf 0x4000000100000000).TimerChannelZero := by decide
theorem test_wf_refuses_stray_desc : ¬ (fieldsOf 0xA001000000000000).DescZero := by decide
theorem test_wf_refuses_desc_256 : (AsmLine.init 256).wellFormed = false := by decide
theorem test_wf_refuses_channel_8 : (AsmLine.config 0 0 8 1).wellFormed = false := by decide
theorem test_wf_refuses_slot_16 : (AsmLine.rdslot 16).wellFormed = false := by decide
theorem test_wf_refuses_raw_33_bits :
    (AsmLine.setduty 0 (.raw 0x100000000)).wellFormed = false := by decide

/-! ### Decode: one word for each command (30_encoding.md R67, R72; the words of 95_test_vectors.md) -/

theorem test_decode_config : decodeTableWord 64 0x1003010200000048 = some (.config 3 1 2 72) := by decide
theorem test_decode_init : decodeTableWord 64 0x2028000000000000 = some (.init 40 0) := by decide
theorem test_decode_init_operand : decodeTableWord 64 0x20000000FFFFFFFF = some (.init 0 0xFFFFFFFF) := by decide
theorem test_decode_deinit : decodeTableWord 64 0x3000000000000000 = some (.deinit 0 0) := by decide
theorem test_decode_start : decodeTableWord 64 0x40100000DEADBEEF = some (.start 16 0xDEADBEEF) := by decide
theorem test_decode_stop : decodeTableWord 64 0x5001000000000000 = some (.stop 1 0) := by decide
theorem test_decode_setper : decodeTableWord 64 0x60010000000007CE = some (.setper 1 1998) := by decide
theorem test_decode_setduty : decodeTableWord 64 0x7001000042480000 = some (.setduty 1 0x42480000) := by decide
theorem test_decode_setfreq : decodeTableWord 64 0x80000000000F424A = some (.setfreq 0 1000010) := by decide
theorem test_decode_rddesc : decodeTableWord 64 0x9005000000000004 = some (.rddesc 5 4) := by decide
theorem test_decode_rdeng : decodeTableWord 64 0xA000000000000203 = some (.rdeng 0x203) := by decide
theorem test_decode_first_failing_check : decode 0xB200000900000000 = .error .reservedField := by decide
theorem test_decode_op_f : decode 0xF000000100000000 = .error .reservedOp := by decide
theorem test_decode_stray_channel : decode 0x4000000100000000 = .error .strayTimerOrChannel := by decide
theorem test_decode_stray_desc : decode 0xA001000000000000 = .error .strayDescriptor := by decide
theorem test_encode_listing :
    listingOf (encode (.config 3 1 2 72)) = "10030102:00000048".toList := by decide

/-! ### Datapath (95_test_vectors.md 2.1 to 2.4) -/

theorem test_compare_middle : compareValue 500 1001 = 501 := by decide
theorem test_compare_largest : compareValue 999 0xFFFFFFFF = 4290672328 := by decide
theorem test_compare_sentinel_wraps : compareValue 1000 4294967196 = 0 := by decide
theorem test_reload_wraps : reloadValue 100 42949673 = 6 := by decide
theorem test_reload_largest : reloadValue 4294967295 4294967295 = 3 := by decide
theorem test_duty_half_away : dutyConv .exact 0x3E800000 = some 3 := by decide
theorem test_duty_exact_below_half : dutyConv .exact 0x42C7E666 = some 999 := by decide
theorem test_duty_binary32_onto_half : dutyConv .binary32 0x42C7E666 = some 1000 := by decide
theorem test_duty_binary32_small : dutyConv .binary32 0x3EB33333 = some 4 := by decide
theorem test_duty_exact_small : dutyConv .exact 0x3EB33333 = some 3 := by decide
theorem test_duty_negative : dutyConv .exact 0xBD4CCCCD = some (-1) := by decide
theorem test_duty_negative_to_zero : dutyConv .exact 0xBD4CCCCC = some 0 := by decide
theorem test_duty_binary32_overflow : dutyConv .binary32 0x7E967699 = none := by decide
theorem test_duty_nan : dutyConv .exact 0x7FC00000 = none := by decide
theorem test_freq_largest_period : freqToPeriod 19 = some 100000 := by decide
theorem test_freq_zero_period : freqToPeriod 1000010 = some 0 := by decide
theorem test_freq_none : freqToPeriod 9 = none := by decide

/-! ### Commands -/

/-- An engine with three slots and two timers. -/
def bare : State :=
  State.resetWith { engineBase := 0x100, timerWidth := 32, dutyMul := .exact, nDesc := 3, nTimer := 2 }

/-- A configured slot. -/
def slot (ch : Channel) (tmr : TimerIndex) (cs period : Word) (duty : BitVec 10) (st : ChanState) : Desc :=
  { ch := ch, tmr := tmr, cfg := true, cs := cs, period := period, duty := duty, state := st }

/-- `bare` with these slots, these registered descriptors (at most two) and these shadows. -/
def engine (slots : List Desc) (reg : List DescIndex) (shadow : List Word) : State :=
  { bare with
    desc := slots
    regSlot := ((Vector.replicate 16 0).set 0 (reg.getD 0 0)).set 1 (reg.getD 1 0)
    regCount := BitVec.ofNat 5 reg.length
    shadow := shadow }

/-- The next state, if there is one. -/
def after : Outcome → Option State
  | .next s => some s
  | .fault _ => none
  | .refused _ => none

/-- Code, events and slots after an outcome. -/
def shows (o : Outcome) : Option (Code × List Event × List Desc) := (after o).map fun s => (s.code, s.events, s.desc)

/-- Two siblings on timer 0: d0 at 50 %, running; d1 stopped. -/
def pair : State :=
  engine [slot 1 0 1 998 500 .active, slot 2 0 1 7 30 .inactive, Desc.reset] [0, 1] [1000, 0]

-- V9: re-CONFIG of an INACTIVE slot overwrites ch, tmr and cs and keeps period and duty.
theorem test_config_overwrites :
    shows (exec (.config 1 1 3 0) pair) =
      some (.ok, [], [slot 1 0 1 998 500 .active, slot 3 1 0 7 30 .inactive, Desc.reset]) := by decide
-- V10: an ACTIVE slot is refused.
theorem test_config_refuses_active : (after (exec (.config 0 1 1 1) pair)).map (·.code) = some .invalidArgument := by
  decide
-- V16: INIT of an ACTIVE descriptor, with no PWM_STOP.
theorem test_init_active :
    shows (exec (.init 0 0) pair) =
      some (.ok, [.hookInit 0 1],
        [slot 1 0 1 0 0 .inactive, slot 2 0 1 7 30 .inactive, Desc.reset]) := by decide
-- V14: INIT registers at the end of the registry.
theorem test_init_registers :
    (after (exec (.init 1 0) { pair with regCount := 1 })).map (fun s => (regList s, s.regCount)) =
      some ([0, 1], 2) := by decide
-- V19: DEINIT keeps the configuration and the registry.
theorem test_deinit :
    shows (exec (.deinit 0 0) pair) =
      some (.ok, [.hookDeinit 0 1],
        [slot 1 0 1 0 0 .inactive, slot 2 0 1 7 30 .inactive, Desc.reset]) := by decide
-- V24: START of d1 rewrites the running sibling d0 for reload 102.
theorem test_start_fans_out :
    shows (exec (.start 1 0) pair) =
      some (.ok, [.wrCompare 0 2 0, .csEnter, .wrReload 0 102, .wrCompare 0 1 52, .csExit, .barrier, .pwmStart 0 2],
        [slot 1 0 1 998 500 .active, slot 2 0 1 0 0 .active, Desc.reset]) := by decide
-- V22: START of an ACTIVE descriptor.
theorem test_start_skips : shows (exec (.start 0 0) pair) = some (.skip, [], pair.desc) := by decide
-- V28: STOP keeps the duty.
theorem test_stop :
    shows (exec (.stop 0 0) pair) =
      some (.ok, [.pwmStop 0 1],
        [slot 1 0 1 998 500 .inactive, slot 2 0 1 7 30 .inactive, Desc.reset]) := by decide
-- V34, V33: an INACTIVE requester; the running sibling is rewritten, the requester's own compare is not.
theorem test_setper :
    shows (exec (.setper 1 1998) pair) =
      some (.ok, [.csEnter, .wrReload 0 2000, .wrCompare 0 1 1001, .csExit, .barrier],
        [slot 1 0 1 998 500 .active, slot 2 0 1 1998 30 .inactive, Desc.reset]) := by decide
-- V53: 99.9 % against reload 1000.
theorem test_setduty :
    shows (exec (.setduty 0 0x42C7CCCD) pair) =
      some (.ok, [.wrCompare 0 1 1000, .barrier],
        [slot 1 0 1 998 999 .active, slot 2 0 1 7 30 .inactive, Desc.reset]) := by decide
-- V43: 50.04 % is the cached permille.
theorem test_setduty_skips : shows (exec (.setduty 0 0x424828F6) pair) = some (.skip, [], pair.desc) := by decide
-- V59: 1000 deci-Hz is period 1000.
theorem test_setfreq :
    shows (exec (.setfreq 0 1000) pair) =
      some (.ok, [.csEnter, .wrReload 0 1002, .wrCompare 0 1 502, .csExit, .barrier],
        [slot 1 0 1 1000 500 .active, slot 2 0 1 7 30 .inactive, Desc.reset]) := by decide
-- V55: absence stands before the divide check.
theorem test_setfreq_absent : (after (exec (.setfreq 2 0) pair)).map (·.code) = some .invalidArgument := by decide
-- V64: ACTIVE, configured, registered, channel 1, timer 0.
theorem test_rddesc_word : (after (exec (.rddesc 0 0) pair)).map (·.rdata) = some 0x00000107 := by decide
-- V70: selector 4 of an unconfigured slot reads 0, not SHADOW[0].
theorem test_rddesc_unconfigured : (after (exec (.rddesc 2 4) pair)).map (·.rdata) = some 0 := by decide
-- V75: an empty registry position.
theorem test_rdeng_empty_position : (after (exec (.rdeng 0x10F) pair)).map (·.rdata) = some 0xFFFFFFFF := by decide
-- V78: t >= N_TIMER.
theorem test_rdeng_bad_timer : (after (exec (.rdeng 0x202) pair)).map (·.code) = some .invalidArgument := by decide
-- V82: OP 0 is illegal and LAST_OP records it.
theorem test_illegal :
    (after (execute 0xB200000900000000 pair)).map (fun s => (s.code, s.lastOp)) =
      some (.illegalCommand, 0xB) := by decide

/-! ### The window and the step -/

-- B5: CONFIG d0, t0, ch1, 1 through the window; STATUS reads 0x10.
theorem test_step_runs_command :
    (after (step (bare.withFetchWord 64 0x1000000100000001))).map
      (fun s => (s.command, s.operand, statusWord s, s.response, s.desc.getD 0 Desc.reset)) =
      some (0x10000001, 1, 0x10, some .writeDone, slot 1 0 1 0 0 .inactive) := by decide
-- B7: a 2-byte write is a bus error and starts no command.
theorem test_write_two_bytes :
    after (memWrite 0x104 [0x00, 0x20] pair) = some { pair with response := some .writeError } := by decide
-- B10: a misaligned read returns 0 with the error.
theorem test_read_misaligned :
    after (memRead 0x102 4 pair) = some { pair with response := some (.readError [0, 0, 0, 0]) } := by decide
-- B3: a write to STATUS is ignored with no bus error.
theorem test_write_status :
    after (memWrite 0x108 [0xFF, 0xFF, 0xFF, 0xFF] pair) = some { pair with response := some .writeDone } := by
  decide
-- 20_memory.md R47: STATUS (REG_COUNT 2 in bits 12:8) on little-endian lanes.
theorem test_read_status_lanes :
    (after (memRead 0x108 4 pair)).map (·.response) = some (some (.readDone [0x00, 0x02, 0x00, 0x00])) := by decide
-- 70_reset_and_hazards.md R145.
theorem test_platform_reset :
    after (step { pair with inputs := [.reset] }) = some bare := by decide

/-! ### The platform -/

-- 60_exceptions.md R138: CMP = 0 is always low, CMP > R always high.
theorem test_ref_low : refHighCounts 9 0 = 0 := by decide
theorem test_ref_high : refHighCounts 9 110 = 10 := by decide
-- 60_exceptions.md R135: an update inside a critical section is delivered at CS_EXIT.
theorem test_update_waits :
    (perform (fun _ _ R => R) 32 .csExit
      (timerUpdate 1 { timers := [], performed := 0, inSection := true, pending := [], delivered := [] })).delivered =
      [1] := by decide

/-! ### The assembler (30_encoding.md R78 to R81) -/

theorem test_asm_config : assembleText "CONFIG d3, t1, ch2, 72" = some (.config 3 1 2 72) := by decide
theorem test_asm_duty : assembleText "setduty d1, 50.04" = some (.setduty 1 0x424828F6) := by decide
theorem test_asm_duty_negative : assembleText "SETDUTY d0, -1" = some (.setduty 0 0xBF800000) := by decide
theorem test_asm_duty_raw : assembleText "SETDUTY d0, f:0x42C8199A" = some (.setduty 0 0x42C8199A) := by decide
theorem test_asm_fullon : assembleText "FULLON d0" = assembleText "SETDUTY d0, 100.0" := by decide
theorem test_asm_rdslot : assembleText "RDSLOT 15" = some (.rdeng 0x10F) := by decide
theorem test_asm_refuses : assembleText "INIT d256" = none := by decide

/-! ### Witnesses: for each statement with hypotheses, a state and operands that meet them together, one for each clause,
at the boundary values of its ranges -/

/-- Seventeen configured slots, the first sixteen registered. -/
def full : State :=
  { bare with
    desc := List.replicate 17 (slot 1 0 1 0 0 .inactive)
    regSlot := Vector.ofFn fun k => BitVec.ofNat 8 k.val
    regCount := 16 }

/-- `pair` with these moves to come. -/
def waiting (moves : List Input) : State := { pair with inputs := moves }

/-- The code a command ends with. -/
def codeOf (i : Instr) (s : State) : Option Code := (after (exec i s)).map (·.code)

/-- One command of each opcode. -/
def commands : List Instr :=
  [.config 1 1 3 2, .init 1 7, .deinit 0 7, .start 1 7, .stop 0 7, .setper 0 5, .setduty 0 0x42C80000, .setfreq 0 1000,
    .rddesc 2 4, .rdeng 0x201]

-- EveryStepCompletes, CommandFrame, OnlyTheirCommandsWriteFields, EventCounts, SectionsAndBarriers,
-- ShadowIsLastEmittedReload, OtherTimersAreUntouched, RegistryOnlyGrows: each command answers a next state with OK.
theorem witness_every_command_completes : commands.map (codeOf · pair) = List.replicate 10 (some .ok) := by decide
theorem witness_registry_good : pair.RegistryGood ∧ full.RegistryGood := by decide
theorem witness_last_timer : (1 : TimerIndex).toNat < pair.nTimer ∧ (1 : TimerIndex) ≠ (descAt pair 0).tmr := by decide
theorem witness_named_descriptor : descOf? (.setper 0 5) = some 0 ∧ descOf? (.rdeng 0) = none := by decide

-- DecodeAndEncodeAgree, EveryWordIsCommandOrIllegal.
theorem witness_legal_word :
    decode 0x1003010200000048 = .ok (.config 3 1 2 72) ∧
    (0x1003010200000048 : CmdWord) &&& 0xFF0000F800000000 = 0x1000000000000000 := by decide
theorem witness_illegal_words :
    ¬ (fieldsOf 0).WellFormed ∧ ¬ (fieldsOf 0xB000000000000000).WellFormed ∧
    ¬ (fieldsOf 0xA001000000000000).WellFormed := by decide

-- StepRunsDecodedCommand and EveryStepKeepsInv; StepOfIllegalCommand.
theorem witness_command_write :
    (waiting [.write 0x104 [0x00, 0x00, 0x00, 0x50]]).inputs =
      .write (pair.straps.engineBase + 4) [0x00, 0x00, 0x00, 0x50] :: [] ∧
    LanesHold [0x00, 0x00, 0x00, 0x50] 0x50000000 ∧
    decode (commandWord 0x50000000 pair.operand) = .ok (.stop 0 0) :=
  ⟨by decide, ⟨_, _, _, _, rfl, by decide⟩, by decide⟩
theorem witness_illegal_write :
    (waiting [.write 0x104 [0x00, 0x00, 0x00, 0x51]]).inputs =
      .write (pair.straps.engineBase + 4) [0x00, 0x00, 0x00, 0x51] :: [] ∧
    LanesHold [0x00, 0x00, 0x00, 0x51] 0x51000000 ∧
    ¬ (fieldsOf (commandWord 0x51000000 pair.operand)).WellFormed :=
  ⟨by decide, ⟨_, _, _, _, rfl, by decide⟩, by decide⟩
theorem witness_inv : bare.Inv ∧ pair.Inv ∧ full.Inv := ⟨by decide, by decide, by decide⟩
theorem witness_step_next :
    (after (step (waiting [.write 0x104 [0x00, 0x00, 0x00, 0x50]]))).isSome = true ∧
    (waiting [.write 0x104 [0x00, 0x00, 0x00, 0x50]]).Inv := by decide

-- WindowReadsAndWrites; OtherAccessesAreBusErrors: first, last and outer bytes of the window, and the bad sizes.
theorem witness_lanes : LanesHold [0x78, 0x56, 0x34, 0x12] 0x12345678 ∧ LanesHold [0xFF, 0xFF, 0xFF, 0xFF] 0xFFFFFFFF :=
  ⟨⟨_, _, _, _, rfl, by decide⟩, ⟨_, _, _, _, rfl, by decide⟩⟩
theorem witness_status_value :
    (0x200 : Word).toNat = pair.regCount.toNat * 2 ^ 8 + pair.lastOp.toNat * 2 ^ 4 + (codeBits pair.code).toNat := by
  decide
theorem witness_refused_accesses :
    ∀ a ∈ [(0xFF, 2), (0x100, 1), (0x100, 8), (0x102, 4), (0x10C, 2), (0x10F, 1)],
      a.1 < pair.straps.engineBase + 16 ∧ pair.straps.engineBase < a.1 + a.2 ∧
      (a.2 ≠ 4 ∨ ¬ (a.1 = pair.straps.engineBase ∨ a.1 = pair.straps.engineBase + 0x4 ∨
        a.1 = pair.straps.engineBase + 0x8 ∨ a.1 = pair.straps.engineBase + 0xC)) := by decide
theorem witness_issued_command :
    (waiting [.write 0x100 [5, 0, 0, 0], .write 0x104 [0, 0, 0, 0x60]]).inputs =
      .write pair.straps.engineBase [5, 0, 0, 0] :: .write (pair.straps.engineBase + 4) [0, 0, 0, 0x60] :: [] ∧
    LanesHold [5, 0, 0, 0] ((0x6000000000000005 : CmdWord).extractLsb' 0 32) ∧
    LanesHold [0, 0, 0, 0x60] ((0x6000000000000005 : CmdWord).extractLsb' 32 32) ∧
    decode 0x6000000000000005 = .ok (.setper 0 5) :=
  ⟨by decide, ⟨_, _, _, _, rfl, by decide⟩, ⟨_, _, _, _, rfl, by decide⟩, by decide⟩
theorem witness_idle_and_unselected :
    pair.inputs = [] ∧ pair.straps.engineBase + 16 ≤ 0x110 ∧
    0xFC + ([1, 2, 3, 4] : List Byte).length ≤ pair.straps.engineBase := by decide
theorem witness_reset_move : (waiting [.reset]).inputs = .reset :: [] := by decide
theorem witness_legal_parameters :
    Config.defaultParams.Legal ∧
    Config.Params.Legal { engineBase := 16, timerWidth := 1, dutyMul := .binary32, nDesc := 1, nTimer := 1 } ∧
    Config.Params.Legal { engineBase := 0, timerWidth := 32, dutyMul := .exact, nDesc := 255, nTimer := 256 } := by decide

-- ComparePropertiesHold, ReloadFormula, FrequencyToPeriod, ReferenceTimerDuty.
theorem witness_compare_ranges :
    0 < (1 : Word).toNat ∧ (0xFFFFFF9B : Word).toNat < 2 ^ 32 - 100 ∧ 2 ^ 32 - 100 ≤ (0xFFFFFF9C : Word).toNat ∧
    2 + 4294967193 * 1 + 100 < 2 ^ 32 := by decide
theorem witness_frequency_ranges :
    freqToPeriod 9 = none ∧ freqToPeriod (10 * 1 + 9) = some (100000 / 1) ∧ freqToPeriod 1000009 = some 1 ∧
    freqToPeriod 1000010 = some 0 := by decide

-- ExactDutyIsNearestPermille, Rne32IsNearestEven, DutyOperandRanges.
theorem witness_finite : ¬ F32Finite 0x7F800000 ∧ F32Finite 0x7F7FFFFF ∧ F32Finite 0x00000000 := by
  unfold F32Finite
  decide
-- Binary32DutyRoundsTwice: a product that rounds, and one that overflows.
theorem witness_binary32_product :
    rne32 (10 * f32Magnitude 0x3EB33333) 1 = some (28 * 2 ^ 146) ∧ rne32 (10 * f32Magnitude 0x7E967699) 1 = none := by
  decide
-- DecimalLiteralIsNearestBinary32: below the overflow threshold and at it.
theorem witness_decimal_literal :
    dutyPattern (.decimal true 125 1) = 0xC1480000 ∧
    dutyPattern (.decimal false (2 ^ 128 - 2 ^ 103) 0) = 0x7F800000 := by decide
-- 0.25 percent is a tie: 2.5 permille.
theorem witness_duty_tie : dutyConv .exact 0x3E800000 = some 3 ∧ 2 * (10 * f32Magnitude 0x3E800000) = 5 * f32One := by
  decide
-- 2^24 + 1 lies between the neighbours 2^24 and 2^24 + 2.
theorem witness_rne32_tie :
    rne32 (2 ^ 24 + 1) 1 = some (2 ^ 24) ∧ OnF32Grid (2 ^ 24 + 2) ∧
    gap (2 ^ 24 + 1) (2 ^ 24 * 1) = gap (2 ^ 24 + 1) ((2 ^ 24 + 2) * 1) :=
  ⟨by decide, ⟨2 ^ 23 + 1, 1, by decide, by decide, by decide⟩, by decide⟩
-- A third is between 0 and 1; five halves is a tie between 2 and 3.
theorem witness_rne32_fraction : rne32 1 3 = some 0 ∧ rne32 5 2 = some 2 ∧ OnF32Grid 3 ∧ gap 5 (2 * 2) = gap 5 (3 * 2) :=
  ⟨by decide, by decide, ⟨3, 0, by decide, by decide, by decide⟩, by decide⟩
theorem witness_rne32_threshold :
    rne32 ((2 ^ 128 - 2 ^ 103) * 2 ^ 149) 1 = none ∧
    rne32 ((2 ^ 128 - 2 ^ 103) * 2 ^ 149 - 1) 1 = some ((2 ^ 24 - 1) * 2 ^ 253) := by decide
theorem witness_duty_ranges :
    dutyConv .exact 0x42C81999 = some 1000 ∧ dutyConv .exact 0x42C8199A = some 1001 ∧
    dutyConv .exact 0x7F800000 = none ∧ dutyConv .exact 0x7FFFFFFF = none ∧
    dutyConv .exact 0x80000000 = some 0 ∧ dutyConv .exact 0xBD4CCCCC = some 0 ∧
    dutyConv .exact 0xBD4CCCCD = some (-1) ∧ dutyConv .exact 0xFF800000 = none ∧
    dutyConv .exact 0xFFFFFFFF = none := by decide
theorem witness_duty_extremes :
    dutyConv .exact 0x7F7FFFFF = some (10 * (2 ^ 24 - 1) * 2 ^ 104) ∧
    dutyConv .exact 0xFF7FFFFF = some (-(10 * (2 ^ 24 - 1) * 2 ^ 104)) := by decide
theorem witness_duty_of_present : present pair 0 = true ∧ pair.straps.dutyMul = .exact := by decide

-- The command rules, clause by clause.
theorem witness_config_refused :
    pair.nDesc ≤ (3 : DescIndex).toNat ∧ pair.nTimer ≤ (2 : TimerIndex).toNat ∧ (0 : Channel).toNat < 1 ∧
    5 < (6 : Channel).toNat ∧ (descAt pair 0).state = .active := by decide
theorem witness_config_accepted :
    (2 : DescIndex).toNat < pair.nDesc ∧ (1 : TimerIndex).toNat < pair.nTimer ∧ 1 ≤ (1 : Channel).toNat ∧
    (5 : Channel).toNat ≤ 5 ∧ (descAt pair 2).state = .inactive := by decide
-- d3 addresses no slot, d2 is not configured: each is absent.
theorem witness_absent : present pair 3 = false ∧ present pair 2 = false := by decide
theorem witness_init_full :
    present full 16 = true ∧ (16 : DescIndex) ∉ regList full ∧ full.regCount.toNat = 16 ∧
    codeOf (.init 16 0) full = some .capacityExceeded := by decide
theorem witness_init_registered_when_full : present full 15 = true ∧ (15 : DescIndex) ∈ regList full := by decide
theorem witness_init_unregistered :
    present { pair with regCount := 1 } 1 = true ∧ (1 : DescIndex) ∉ regList { pair with regCount := 1 } ∧
    ({ pair with regCount := 1 } : State).regCount.toNat < 16 := by decide
theorem witness_init_twice : pair.Inv ∧ present pair 1 = true ∧ (1 : DescIndex) ∈ regList pair := by decide
theorem witness_start :
    (present pair 1 = true ∧ (descAt pair 1).state = .inactive) ∧
    (102 : Word).toNat = (2 + 100 * (descAt pair 1).cs.toNat) % 2 ^ 32 ∧
    (present pair 0 = true ∧ (descAt pair 0).state = .active) := by decide
theorem witness_setper :
    present pair 0 = true ∧ (7 : Word).toNat = (2 + (5 : Word).toNat * (descAt pair 0).cs.toNat) % 2 ^ 32 := by decide
theorem witness_setduty_refused :
    present pair 0 = true ∧ dutyConv pair.straps.dutyMul 0x42C8199A = some 1001 ∧
    dutyConv pair.straps.dutyMul 0x7F800000 = none := by decide
theorem witness_setduty_skip_and_write :
    dutyConv pair.straps.dutyMul 0x42480000 = some ((500 : ℕ) : ℤ) ∧ (descAt pair 0).duty.toNat = 500 ∧
    dutyConv pair.straps.dutyMul 0x42C81999 = some ((1000 : ℕ) : ℤ) ∧ (descAt pair 0).duty.toNat ≠ 1000 ∧
    dutyConv pair.straps.dutyMul 0x80000000 = some ((0 : ℕ) : ℤ) := by decide
theorem witness_setfreq :
    (9 : Word).toNat < 10 ∧ 10 ≤ (10 : Word).toNat ∧ (100000 : Word).toNat = 100000 / ((10 : Word).toNat / 10) ∧
    (100002 : Word).toNat = (2 + (100000 : Word).toNat * (descAt pair 0).cs.toNat) % 2 ^ 32 := by decide
theorem witness_rddesc :
    pair.nDesc ≤ (3 : DescIndex).toNat ∧ 4 < (5 : Word).toNat ∧ (2 : DescIndex).toNat < pair.nDesc ∧
    (4 : Word).toNat ≤ 4 := by decide
theorem witness_rdeng :
    (0x100 : Word).toNat = 0x100 + 0 ∧ (0x10F : Word).toNat = 0x100 + 15 ∧ (0x201 : Word).toNat = 0x200 + 1 ∧
    1 < pair.nTimer ∧ 1 < pair.regCount.toNat ∧ pair.regCount.toNat ≤ 2 := by decide
theorem witness_rdeng_refused :
    ([1, 0xFF, 0x110, 0x1FF, 0x202, 0xFFFFFFFF] : List Word).all (fun x =>
      decide (x.toNat ≠ 0) && !decide (0x100 ≤ x.toNat ∧ x.toNat ≤ 0x10F) &&
      !decide (0x200 ≤ x.toNat ∧ x.toNat < 0x200 + pair.nTimer)) = true := by decide
theorem witness_rdeng_illegal :
    (fieldsOf 0xA001000000000000).op = 0xA ∧ (fieldsOf 0xA001000000000000).desc ≠ 0 ∧
    (fieldsOf 0xA000010000000000).tmr ≠ 0 ∧ (fieldsOf 0xA000000100000000).ch ≠ 0 := by decide
theorem witness_sibling : (descAt pair 0).tmr = 0 ∧ (descAt pair 0).state = .active ∧ siblings pair 0 = [0] := by decide

-- ErrorsArePrecise, EachCodeHasItsCause, ReadbackIsPure: each code but OK is reached.
theorem witness_codes :
    codeOf (.start 0 0) pair = some .skip ∧ codeOf (.setduty 0 0x42480000) pair = some .skip ∧
    codeOf (.rdeng 1) pair = some .invalidArgument ∧ codeOf (.setduty 0 0x7F800000) pair = some .outOfRange ∧
    codeOf (.setfreq 0 9) pair = some .divideByZero := by decide
theorem witness_illegal_execute :
    (after (execute 0xF000000000000000 pair)).map (·.code) = some .illegalCommand := by decide

-- ReadbackDeterminesState: two engines that differ in RDATA only.
theorem witness_readback_pair :
    pair.Inv ∧ ({ pair with rdata := 7 } : State).Inv ∧ pair.nDesc = ({ pair with rdata := 7 } : State).nDesc ∧
    pair.nTimer = ({ pair with rdata := 7 } : State).nTimer := by decide
theorem witness_rddesc_agrees (d : DescIndex) (x : Word) :
    answerOf (.rddesc d x) pair = answerOf (.rddesc d x) { pair with rdata := 7 } := by
  have h : descField { pair with rdata := 7 } d x = descField pair d x := rfl
  have hn : ({ pair with rdata := 7 } : State).nDesc = pair.nDesc := rfl
  simp only [answerOf, exec_eq_finish, finish, runOf, runRddesc, h, hn]
  split
  · rfl
  · cases descField pair d x <;> rfl
theorem witness_rdeng_agrees (x : Word) :
    answerOf (.rdeng x) pair = answerOf (.rdeng x) { pair with rdata := 7 } := by
  have h : engineField { pair with rdata := 7 } x = engineField pair x := rfl
  simp only [answerOf, exec_eq_finish, finish, runOf, runRdeng, h]
  cases engineField pair x <;> rfl

/-- Two timers that hold what `pair` asks for. -/
def timers : Platform :=
  { timers :=
      [ { reload := 1000, cmp := #v[501, 0, 0, 0, 0], generating := #v[true, false, false, false, false] }
      , { reload := 7, cmp := #v[1, 2, 3, 4, 5], generating := #v[false, false, false, false, false] } ]
    performed := 0, inSection := false, pending := [], delivered := [] }

-- EventsWriteTheirRegister, on an 8-bit timer: 0x1FF leaves 0xFF.
theorem witness_event_at_timer :
    timers.timers[(1 : TimerIndex).toNat]? =
      some { reload := 7, cmp := #v[1, 2, 3, 4, 5], generating := #v[false, false, false, false, false] } ∧
    (0xFF : Word).toNat = (0x1FF : Word).toNat % 2 ^ 8 ∧ 1 ≤ (1 : Channel).toNat ∧ (5 : Channel).toNat ≤ 5 := by decide
-- ObserverSeesNoTornReload: outside a section, with a view in the list.
theorem witness_start_views :
    codeOf (.start 1 0) pair = some .ok ∧
    timers.timers.modify 0 (writeCmp 2 0) ∈
      observerViews (fun _ _ R => R) 32 [.wrCompare 0 2 0, .csEnter, .csExit] timers := by decide
theorem witness_observer :
    timers.inSection = false ∧ opOf (.setper 0 5) = 0x6 ∧ opOf (.setfreq 0 1000) = 0x8 ∧
    timers.timers ∈ observerViews (fun _ _ R => R) 32 [.csEnter, .wrReload 0 7, .csExit, .barrier] timers := by decide
-- CommandsKeepTimersConsistent.
theorem witness_consistent_pair :
    pair.Inv ∧ timers.timers.length = pair.nTimer ∧
    (0 : DescIndex) ∈ regList pair ∧ (descAt pair 0).state = .active ∧
    timers.timers[(descAt pair 0).tmr.toNat]? =
      some { reload := 1000, cmp := #v[501, 0, 0, 0, 0], generating := #v[true, false, false, false, false] } ∧
    (1000 : Word) = truncTimer 32 (shadowAt pair 0) ∧
    (501 : Word) = truncTimer 32 (compareValue 500 (shadowAt pair 0)) := by decide
theorem witness_consistent : Consistent pair timers.timers := by
  intro j hj hs
  have h : regList pair = [0, 1] := by decide
  rw [h] at hj
  simp only [List.mem_cons, List.not_mem_nil, or_false] at hj
  rcases hj with rfl | rfl
  · exact ⟨{ reload := 1000, cmp := #v[501, 0, 0, 0, 0], generating := #v[true, false, false, false, false] },
      by decide, by decide, by decide⟩
  · exact absurd hs (by decide)
theorem witness_channels_distinct : ChannelsDistinct pair := by
  have h : ∀ i : DescIndex, present pair i = true → i = 0 ∨ i = 1 := by
    intro i hi
    have hn : pair.nDesc = 3 := by decide
    have hlt := lt_of_present hi
    rw [hn] at hlt
    have h2 : i ≠ 2 := by rintro rfl; exact absurd hi (by decide)
    have h2' : i.toNat ≠ 2 := fun h => h2 (BitVec.eq_of_toNat_eq h)
    have : i.toNat = 0 ∨ i.toNat = 1 := by omega
    exact this.imp (fun h => BitVec.eq_of_toNat_eq h) (fun h => BitVec.eq_of_toNat_eq h)
  intro i j hi hj _ hc
  rcases h i hi with rfl | rfl <;> rcases h j hj with rfl | rfl
  · rfl
  · exact absurd hc (by decide)
  · exact absurd hc (by decide)
  · rfl
theorem witness_gentle_hook (i : Instr) : HooksKeepRegisters (fun _ _ R => R) i := fun _ _ _ _ => rfl
theorem witness_whole_values :
    ReloadFits pair.straps.timerWidth 998 1 ∧ (shadowAt pair (descAt pair 0).tmr).toNat = 2 + 998 * 1 := by decide
-- The largest period that fits an 11-bit timer and a clock scale of 1.
theorem witness_reload_fits_narrow : ReloadFits 11 1945 1 ∧ ¬ ReloadFits 11 1946 1 := by decide

-- AssemblerNeverTruncates, PseudoCommandsExpand: the largest operands, and one beyond.
theorem witness_assembler :
    assembleLine (.config 255 255 7 4294967295) = some (.config 0xFF 0xFF 7 0xFFFFFFFF) ∧
    assembleLine (.config 255 256 7 4294967295) = none ∧
    assembleLine (.rddesc 255 4294967295) = some (.rddesc 0xFF 0xFFFFFFFF) ∧
    assembleLine (.setduty 255 (.raw 4294967296)) = none := by decide
theorem witness_pseudo_commands :
    assembleLine (.off 255) = some (.setduty 0xFF 0) ∧ assembleLine (.off 256) = none ∧
    assembleLine (.rdslot 15) = some (.rdeng 0x10F) ∧ assembleLine (.rdslot 16) = none ∧
    assembleLine (.rdshadow 255) = some (.rdeng 0x2FF) ∧ assembleLine (.rdshadow 256) = none := by decide

end Sys2Proof.Tests
end

/-! PROOFS of the family 10_state.md: what a command can do to the state, said once, and the invariants, frames and
write permissions that follow from it. -/

/-! ### What a command can do -/

section
namespace Sys2Proof.Machine

open Sys2Proof Sys2Proof.Claims

/-- How a command that ends with OK changes the state, everything read from the state before it. The premises are what
the command's checks establish. -/
inductive CommandEffect (s : State) : Instr → State → Prop where
  | config {d : DescIndex} {t : TimerIndex} {ch : Channel} {v : Word} (hd : d.toNat < s.nDesc)
      (ht : t.toNat < s.nTimer) (hch : 1 ≤ ch.toNat ∧ ch.toNat ≤ 5) (hs : (descAt s d).state = .inactive) :
      CommandEffect s (.config d t ch v) (modDesc d (configure t ch v) s)
  | initRegistered {d : DescIndex} {x : Word} (hp : present s d = true) (hr : d ∈ regList s) :
      CommandEffect s (.init d x)
        (modDesc d (deactivate ∘ clearCache) (emit (.hookInit (descAt s d).tmr (descAt s d).ch) s))
  | initUnregistered {d : DescIndex} {x : Word} (hp : present s d = true) (hr : d ∉ regList s)
      (hc : s.regCount.toNat ≠ 16) :
      CommandEffect s (.init d x) (appendReg d
        (modDesc d (deactivate ∘ clearCache) (emit (.hookInit (descAt s d).tmr (descAt s d).ch) s)))
  | deinit {d : DescIndex} {x : Word} (hp : present s d = true) :
      CommandEffect s (.deinit d x)
        (modDesc d (deactivate ∘ clearCache) (emit (.hookDeinit (descAt s d).tmr (descAt s d).ch) s))
  | start {d : DescIndex} {x : Word} (hp : present s d = true) (hs : (descAt s d).state = .inactive) :
      CommandEffect s (.start d x) (modDesc d (activate ∘ clearCache)
        (emit (.pwmStart (descAt s d).tmr (descAt s d).ch)
          (applyReload (descAt s d).tmr (reloadValue 100 (descAt s d).cs.toNat)
            (emit (.wrCompare (descAt s d).tmr (descAt s d).ch 0) s))))
  | stop {d : DescIndex} {x : Word} (hp : present s d = true) :
      CommandEffect s (.stop d x) (modDesc d deactivate (emit (.pwmStop (descAt s d).tmr (descAt s d).ch) s))
  | setper {d : DescIndex} {v : Word} (hp : present s d = true) :
      CommandEffect s (.setper d v) (changePeriod d v s)
  | setduty {d : DescIndex} {f : Word} {p : Int} (hp : present s d = true)
      (hf : dutyConv s.straps.dutyMul f = some p) (hrange : 0 ≤ p ∧ p ≤ 1000) (hne : p ≠ (descAt s d).duty.toNat) :
      CommandEffect s (.setduty d f) (modDesc d (withDuty (BitVec.ofInt 10 p)) (emitAll
        [.wrCompare (descAt s d).tmr (descAt s d).ch (compareValue p.toNat (shadowAt s (descAt s d).tmr)), .barrier] s))
  | setfreq {d : DescIndex} {v : Word} {p : Nat} (hp : present s d = true) (hq : freqToPeriod v.toNat = some p) :
      CommandEffect s (.setfreq d v) (changePeriod d (BitVec.ofNat 32 p) s)
  | rddesc {d : DescIndex} {sel x : Word} (hd : d.toNat < s.nDesc) (hx : descField s d sel = some x) :
      CommandEffect s (.rddesc d sel) (setRdata x s)
  | rdeng {sel x : Word} (hx : engineField s sel = some x) : CommandEffect s (.rdeng sel) (setRdata x s)

/-- A command's `Run` ends in one of two ways: with another code than OK and the state untouched, or with OK and the
command's effect. -/
def EndsAs (i : Instr) (s : State) (r : Result) : Prop :=
  (r.1 ≠ .ok ∧ r.2 = s) ∨ (r.1 = .ok ∧ CommandEffect s i r.2)

theorem endsAs_raise {i : Instr} {s : State} {c : Code} (hc : c ≠ .ok) : EndsAs i s (raise c s) := .inl ⟨hc, rfl⟩

theorem endsAs_skip (i : Instr) (s : State) : EndsAs i s (skip s) := .inl ⟨Code.noConfusion, rfl⟩

theorem endsAs_done {i : Instr} {s t : State} (h : CommandEffect s i t) : EndsAs i s (done t) := .inr ⟨rfl, h⟩

theorem state_eq_inactive_of_ne_active {c : ChanState} (h : c ≠ .active) : c = .inactive := by
  cases c with
  | inactive => rfl
  | active => exact absurd rfl h

/-- Writing a descriptor and emitting an event commute. -/
theorem emit_modDesc (e : Event) (i : DescIndex) (f : Desc → Desc) (s : State) :
    emit e (modDesc i f s) = modDesc i f (emit e s) := rfl

theorem runConfig_endsAs (d : DescIndex) (t : TimerIndex) (ch : Channel) (v : Word) (s : State) :
    EndsAs (.config d t ch v) s (runConfig d t ch v s) := by
  unfold runConfig
  split
  · exact endsAs_raise Code.noConfusion
  split
  · exact endsAs_raise Code.noConfusion
  split
  · exact endsAs_raise Code.noConfusion
  next hd htc hs =>
    exact endsAs_done (.config (by omega) (by omega) (by simp only [Config.nCh] at htc; omega)
      (state_eq_inactive_of_ne_active hs))

theorem runInit_endsAs (d : DescIndex) (x : Word) (s : State) : EndsAs (.init d x) s (runInit d s) := by
  unfold runInit
  split
  · exact endsAs_raise Code.noConfusion
  split
  · exact endsAs_raise Code.noConfusion
  next hp hfull =>
    have hp : present s d = true := by simpa using hp
    simp only [modDesc_modDesc]
    obtain ⟨hr, heq⟩ | ⟨hr, hc, -⟩ | ⟨hr, hc, heq⟩ := register_cases d
      (modDesc d (deactivate ∘ clearCache) (emit (.hookInit (descAt s d).tmr (descAt s d).ch) s))
    · rw [heq]
      exact endsAs_done (.initRegistered hp hr)
    · simp only [regList_modDesc, regList_emit, modDesc_regCount, emit_regCount] at hr hc
      simp [registered, registryFull, hr, hc] at hfull
    · rw [heq]
      exact endsAs_done (.initUnregistered hp hr hc)

theorem runDeinit_endsAs (d : DescIndex) (x : Word) (s : State) : EndsAs (.deinit d x) s (runDeinit d s) := by
  unfold runDeinit
  split
  · exact endsAs_raise Code.noConfusion
  next hp =>
    simp only [descAt_modDesc_field (·.tmr) (f := deactivate) (fun _ => rfl),
      descAt_modDesc_field (·.ch) (f := deactivate) (fun _ => rfl), emit_modDesc, modDesc_modDesc]
    exact endsAs_done (.deinit (by simpa using hp))

/-- Clearing the cached period and duty of an INACTIVE descriptor before the fan-out or after it is the same, because
the descriptor is no sibling yet (41_lifecycle.md R96). -/
theorem applyReload_modDesc_clearCache {d : DescIndex} {s : State} (h : (descAt s d).state = .inactive)
    (t : TimerIndex) (r : Word) :
    applyReload t r (modDesc d clearCache s) = modDesc d clearCache (applyReload t r s) := by
  rw [applyReload_eq, applyReload_eq, siblings_modDesc (f := clearCache) (fun _ => rfl) (fun _ => rfl),
    siblingEvents_modDesc_of_inactive h]
  rfl

theorem runStart_endsAs (d : DescIndex) (x : Word) (s : State) : EndsAs (.start d x) s (runStart d s) := by
  unfold runStart
  split
  · exact endsAs_raise Code.noConfusion
  split
  · exact endsAs_skip _ _
  next hp hs =>
    have hs := state_eq_inactive_of_ne_active hs
    simp only [descAt_emit, descAt_modDesc_field (·.cs) (f := clearCache) (fun _ => rfl), emit_modDesc]
    rw [applyReload_modDesc_clearCache ((congrArg Desc.state (descAt_emit ..)).trans hs), emit_modDesc, modDesc_modDesc]
    exact endsAs_done (.start (by simpa using hp) hs)

theorem runStop_endsAs (d : DescIndex) (x : Word) (s : State) : EndsAs (.stop d x) s (runStop d s) := by
  unfold runStop
  split
  · exact endsAs_raise Code.noConfusion
  next hp => exact endsAs_done (.stop (by simpa using hp))

theorem runSetper_endsAs (d : DescIndex) (v : Word) (s : State) : EndsAs (.setper d v) s (runSetper d v s) := by
  unfold runSetper
  split
  · exact endsAs_raise Code.noConfusion
  next hp => exact endsAs_done (.setper (by simpa using hp))

theorem runSetduty_endsAs (d : DescIndex) (f : Word) (s : State) : EndsAs (.setduty d f) s (runSetduty d f s) := by
  unfold runSetduty
  split
  · exact endsAs_raise Code.noConfusion
  split
  · exact endsAs_raise Code.noConfusion
  next hp _ p hf =>
    obtain ⟨-, heq⟩ | ⟨-, -, heq⟩ | ⟨hrange, hne, heq⟩ := applyDuty_cases d p s <;> rw [heq]
    · exact endsAs_raise Code.noConfusion
    · exact endsAs_skip _ _
    · exact endsAs_done (.setduty (by simpa using hp) hf hrange hne)

theorem runSetfreq_endsAs (d : DescIndex) (v : Word) (s : State) : EndsAs (.setfreq d v) s (runSetfreq d v s) := by
  unfold runSetfreq
  split
  · exact endsAs_raise Code.noConfusion
  split
  · exact endsAs_raise Code.noConfusion
  next hp _ p hq => exact endsAs_done (.setfreq (by simpa using hp) hq)

theorem runRddesc_endsAs (d : DescIndex) (sel : Word) (s : State) :
    EndsAs (.rddesc d sel) s (runRddesc d sel s) := by
  unfold runRddesc
  split
  · exact endsAs_raise Code.noConfusion
  split
  · exact endsAs_raise Code.noConfusion
  next hd _ x hx => exact endsAs_done (.rddesc (by omega) hx)

theorem runRdeng_endsAs (sel : Word) (s : State) : EndsAs (.rdeng sel) s (runRdeng sel s) := by
  unfold runRdeng
  split
  · exact endsAs_raise Code.noConfusion
  next x hx => exact endsAs_done (.rdeng hx)

theorem runOf_endsAs (i : Instr) (s : State) : EndsAs i s (runOf i s) := by
  cases i with
  | config d t ch v => exact runConfig_endsAs d t ch v s
  | init d x => exact runInit_endsAs d x s
  | deinit d x => exact runDeinit_endsAs d x s
  | start d x => exact runStart_endsAs d x s
  | stop d x => exact runStop_endsAs d x s
  | setper d v => exact runSetper_endsAs d v s
  | setduty d f => exact runSetduty_endsAs d f s
  | setfreq d v => exact runSetfreq_endsAs d v s
  | rddesc d sel => exact runRddesc_endsAs d sel s
  | rdeng sel => exact runRdeng_endsAs sel s

/-- What a command that answers `next t` has done: only STATUS written, or its effect with OK. -/
theorem exec_cases {i : Instr} {s t : State} (h : exec i s = .next t) :
    (∃ c, c ≠ .ok ∧ t = { s with code := c, lastOp := opOf i }) ∨
    (∃ u, CommandEffect s i u ∧ t = { u with code := .ok, lastOp := opOf i }) := by
  have ht := exec_next h
  obtain ⟨hc, hs⟩ | ⟨hc, he⟩ := runOf_endsAs i s
  · rw [hs] at ht
    exact .inl ⟨_, hc, ht⟩
  · rw [hc] at ht
    exact .inr ⟨_, he, ht⟩

end Sys2Proof.Machine
end

/-! ### The frame of a command, and which fields it writes -/

section
namespace Sys2Proof.Machine

open Sys2Proof Sys2Proof.Claims

theorem applyReload_eq_fanOut (t : TimerIndex) (r : Word) (s : State) :
    applyReload t r s = emitAll (fanOut s t r) (setShadow t r s) := applyReload_eq t r s

@[simp] theorem fanOut_emit (e : Event) (s : State) (t : TimerIndex) (r : Word) :
    fanOut (emit e s) t r = fanOut s t r := rfl

theorem mem_fanOut {s : State} {t : TimerIndex} {r : Word} {e : Event} : e ∈ fanOut s t r ↔
    e = .csEnter ∨ e = .wrReload t r ∨ (∃ j ∈ siblings s t, e = siblingEvent s t r j) ∨ e = .csExit ∨ e = .barrier := by
  simp [fanOut, siblingEvent, eq_comm]

@[simp] theorem applyReload_desc (t : TimerIndex) (r : Word) (s : State) : (applyReload t r s).desc = s.desc := by
  rw [applyReload_eq]
@[simp] theorem applyReload_regSlot (t : TimerIndex) (r : Word) (s : State) :
    (applyReload t r s).regSlot = s.regSlot := by rw [applyReload_eq]
@[simp] theorem applyReload_regCount (t : TimerIndex) (r : Word) (s : State) :
    (applyReload t r s).regCount = s.regCount := by rw [applyReload_eq]
@[simp] theorem applyReload_shadow (t : TimerIndex) (r : Word) (s : State) :
    (applyReload t r s).shadow = s.shadow.set t.toNat r := by rw [applyReload_eq]
@[simp] theorem applyReload_operand (t : TimerIndex) (r : Word) (s : State) :
    (applyReload t r s).operand = s.operand := by rw [applyReload_eq]
@[simp] theorem applyReload_command (t : TimerIndex) (r : Word) (s : State) :
    (applyReload t r s).command = s.command := by rw [applyReload_eq]
@[simp] theorem applyReload_rdata (t : TimerIndex) (r : Word) (s : State) : (applyReload t r s).rdata = s.rdata := by
  rw [applyReload_eq]
@[simp] theorem applyReload_straps (t : TimerIndex) (r : Word) (s : State) :
    (applyReload t r s).straps = s.straps := by rw [applyReload_eq]
@[simp] theorem applyReload_inputs (t : TimerIndex) (r : Word) (s : State) :
    (applyReload t r s).inputs = s.inputs := by rw [applyReload_eq]
@[simp] theorem applyReload_response (t : TimerIndex) (r : Word) (s : State) :
    (applyReload t r s).response = s.response := by rw [applyReload_eq]
@[simp] theorem applyReload_events (t : TimerIndex) (r : Word) (s : State) :
    (applyReload t r s).events = s.events ++ fanOut s t r := by
  rw [applyReload_eq_fanOut, emitAll_events, setShadow_events]

@[simp] theorem shadowAt_applyReload (t : TimerIndex) (r : Word) (s : State) (u : TimerIndex) :
    shadowAt (applyReload t r s) u = if t = u ∧ t.toNat < s.nTimer then r else shadowAt s u := by
  rw [← shadowAt_setShadow, shadowAt, applyReload_shadow, shadowAt, setShadow_shadow]

@[simp] theorem present_applyReload (t : TimerIndex) (r : Word) (s : State) (j : DescIndex) :
    present (applyReload t r s) j = present s j := by
  simp [present, descAt, State.nDesc]

/-- What a command that ends with OK writes into the slot it names; RDDESC and RDENG write none. -/
def slotWrite (s : State) : Instr → Desc → Desc
  | .config _ t ch v => configure t ch v
  | .init _ _ | .deinit _ _ => deactivate ∘ clearCache
  | .start _ _ => activate ∘ clearCache
  | .stop _ _ => deactivate
  | .setper _ v => withPeriod v
  | .setduty _ f => withDuty (BitVec.ofInt 10 ((dutyConv s.straps.dutyMul f).getD 0))
  | .setfreq _ v => withPeriod (BitVec.ofNat 32 ((freqToPeriod v.toNat).getD 0))
  | .rddesc _ _ | .rdeng _ => id

/-- Only CONFIG writes a slot's channel, timer, clock scale and configured bit. -/
theorem slotWrite_configuration {i : Instr} (hi : opOf i ≠ 0x1) (s : State) (d : Desc) :
    (slotWrite s i d).ch = d.ch ∧ (slotWrite s i d).tmr = d.tmr ∧ (slotWrite s i d).cs = d.cs ∧
      (slotWrite s i d).cfg = d.cfg := by
  cases i with
  | config => exact absurd rfl hi
  | _ => exact ⟨rfl, rfl, rfl, rfl⟩

theorem slotWrite_period {i : Instr}
    (hi : ¬ (opOf i = 0x2 ∨ opOf i = 0x3 ∨ opOf i = 0x4 ∨ opOf i = 0x6 ∨ opOf i = 0x8)) (s : State) (d : Desc) :
    (slotWrite s i d).period = d.period := by
  cases i with
  | init | deinit | start | setper | setfreq => simp [opOf] at hi
  | _ => rfl

theorem slotWrite_duty {i : Instr} (hi : ¬ (opOf i = 0x2 ∨ opOf i = 0x3 ∨ opOf i = 0x4 ∨ opOf i = 0x7))
    (s : State) (d : Desc) : (slotWrite s i d).duty = d.duty := by
  cases i with
  | init | deinit | start | setduty => simp [opOf] at hi
  | _ => rfl

theorem slotWrite_state {i : Instr} (hi : ¬ (opOf i = 0x2 ∨ opOf i = 0x3 ∨ opOf i = 0x4 ∨ opOf i = 0x5))
    (s : State) (d : Desc) : (slotWrite s i d).state = d.state := by
  cases i with
  | init | deinit | start | stop => simp [opOf] at hi
  | _ => rfl

namespace CommandEffect

variable {i : Instr} {s t : State}

/-- The slot a command names holds the command's write. -/
theorem desc_eq (h : CommandEffect s i t) {d : DescIndex} (hd : descOf? i = some d) :
    t.desc = s.desc.modify d.toNat (slotWrite s i) := by
  cases h <;> simp only [descOf?, Option.some.injEq, reduceCtorEq] at hd <;> subst hd
  case setduty hf _ _ => simp [slotWrite, hf]
  case setfreq hq => simp [slotWrite, changePeriod_eq, hq]
  all_goals simp [slotWrite, changePeriod_eq]

theorem desc_eq_of_rdeng (h : CommandEffect s i t) (hi : descOf? i = none) : t.desc = s.desc := by
  cases h with
  | rdeng => rfl
  | _ => cases hi

/-- A field that the command's write leaves alone reads as before in every slot. -/
theorem descAt_field {α : Type} {g : Desc → α} (h : CommandEffect s i t) (hg : ∀ d, g (slotWrite s i d) = g d)
    (j : DescIndex) : g (descAt t j) = g (descAt s j) := by
  cases hd : descOf? i with
  | none => rw [descAt, h.desc_eq_of_rdeng hd, descAt]
  | some d =>
    rw [← descAt_modDesc_field g hg d j s, descAt, h.desc_eq hd, descAt, modDesc_desc]

/-- A slot the command does not name is as before. -/
theorem desc_getElem? (h : CommandEffect s i t) {j : Nat} (hj : ∀ d, descOf? i = some d → d.toNat ≠ j) :
    t.desc[j]? = s.desc[j]? := by
  cases hd : descOf? i with
  | none => rw [h.desc_eq_of_rdeng hd]
  | some d => simp [h.desc_eq hd, hj d hd]

theorem length_desc (h : CommandEffect s i t) : t.desc.length = s.desc.length := by
  cases h <;> simp [changePeriod_eq]

theorem length_shadow (h : CommandEffect s i t) : t.shadow.length = s.shadow.length := by
  cases h <;> simp [changePeriod_eq]

theorem straps_eq (h : CommandEffect s i t) : t.straps = s.straps := by
  cases h <;> simp [changePeriod_eq]

theorem params_eq (h : CommandEffect s i t) : t.params = s.params := by
  simp only [State.params, State.nDesc, State.nTimer, h.straps_eq, h.length_desc, h.length_shadow]

/-- The window's own registers, the pending moves and the bus's answer are no command's to write. -/
theorem wires_eq (h : CommandEffect s i t) :
    t.operand = s.operand ∧ t.command = s.command ∧ t.inputs = s.inputs ∧ t.response = s.response := by
  cases h <;> simp [changePeriod_eq]

theorem events_extended (h : CommandEffect s i t) : s.events <+: t.events := by
  cases h <;> simp [changePeriod_eq]

theorem registry_eq (h : CommandEffect s i t) (hi : opOf i ≠ 0x2) :
    t.regSlot = s.regSlot ∧ t.regCount = s.regCount := by
  cases h with
  | initRegistered | initUnregistered => exact absurd rfl hi
  | _ => simp [changePeriod_eq]

theorem shadow_eq (h : CommandEffect s i t) (hi : ¬ (opOf i = 0x4 ∨ opOf i = 0x6 ∨ opOf i = 0x8)) :
    t.shadow = s.shadow := by
  cases h with
  | start | setper | setfreq => simp [opOf] at hi
  | _ => simp

theorem rdata_eq (h : CommandEffect s i t) (hi : ¬ (opOf i = 0x9 ∨ opOf i = 0xA)) : t.rdata = s.rdata := by
  cases h with
  | rddesc | rdeng => simp [opOf] at hi
  | _ => simp [changePeriod_eq]

end CommandEffect

end Sys2Proof.Machine

namespace Sys2Proof.Claims

open Sys2Proof.Machine

/-- Settles O40. -/
theorem commandFrame : Obligations.CommandFrame := by
  intro i s t h
  obtain ⟨c, -, rfl⟩ | ⟨u, he, rfl⟩ := exec_cases h
  · exact ⟨rfl, rfl, rfl, rfl, rfl, ⟨[], List.append_nil _⟩, fun _ _ => rfl⟩
  · obtain ⟨hoperand, hcommand, hinputs, hresponse⟩ := he.wires_eq
    exact ⟨hoperand, hcommand, he.params_eq, hinputs, hresponse, he.events_extended, fun _ hj => he.desc_getElem? hj⟩

/-- Settles O41: a field that the command's slot write keeps cannot differ. -/
theorem onlyTheirCommandsWriteFields : Obligations.OnlyTheirCommandsWriteFields := by
  intro i s t h
  obtain ⟨c, -, rfl⟩ | ⟨u, he, rfl⟩ := exec_cases h
  · simp [descAt]
  · refine ⟨fun ⟨j, hj⟩ => by_contra fun hi => ?_, fun ⟨j, hj⟩ => by_contra fun hi => hj ?_,
      fun ⟨j, hj⟩ => by_contra fun hi => hj ?_, fun ⟨j, hj⟩ => by_contra fun hi => hj ?_,
      fun hr => by_contra fun hi => ?_, fun hs => by_contra fun hi => hs (he.shadow_eq hi),
      fun hd => by_contra fun hi => hd (he.rdata_eq hi)⟩
    · obtain ⟨hch, hrest⟩ := forall_and.1 (slotWrite_configuration hi s)
      obtain ⟨htmr, hrest⟩ := forall_and.1 hrest
      obtain ⟨hcs, hcfg⟩ := forall_and.1 hrest
      obtain hj | hj | hj | hj := hj
      · exact hj (he.descAt_field (g := (·.ch)) hch j)
      · exact hj (he.descAt_field (g := (·.tmr)) htmr j)
      · exact hj (he.descAt_field (g := (·.cs)) hcs j)
      · exact hj (he.descAt_field (g := (·.cfg)) hcfg j)
    · exact he.descAt_field (g := (·.period)) (slotWrite_period hi s) j
    · exact he.descAt_field (g := (·.duty)) (slotWrite_duty hi s) j
    · exact he.descAt_field (g := (·.state)) (slotWrite_state hi s) j
    · obtain ⟨hslot, hcount⟩ := he.registry_eq hi
      exact hr.elim (· hslot) (· hcount)

end Sys2Proof.Claims
end

/-! ### The shadow of a timer and the reloads emitted to it -/

section
namespace Sys2Proof.Claims

open Sys2Proof.Machine

theorem lastReload_eq_none {u : TimerIndex} {es : List Event} (h : ∀ e ∈ es, reloadTo? u e = none) :
    lastReload u es = none := by
  rw [lastReload, List.filterMap_eq_nil_iff.2 h, List.getLast?_nil]

/-- A fan-out emits one reload; its sibling updates write compares. -/
theorem filterMap_reloadTo?_fanOut (u t : TimerIndex) (r : Word) (s : State) :
    (fanOut s t r).filterMap (reloadTo? u) = if t = u then [r] else [] := by
  by_cases htu : t = u
  · simp [fanOut, List.filterMap_append, List.filterMap_cons, reloadTo?, htu]
  · simp [fanOut, List.filterMap_append, List.filterMap_cons, reloadTo?, htu]

theorem lastReload_fanOut {u : TimerIndex} {pre post : List Event} (hpre : ∀ e ∈ pre, reloadTo? u e = none)
    (hpost : ∀ e ∈ post, reloadTo? u e = none) (t : TimerIndex) (r : Word) (s : State) :
    lastReload u (pre ++ fanOut s t r ++ post) = if t = u then some r else none := by
  rw [lastReload, List.filterMap_append, List.filterMap_append, List.filterMap_eq_nil_iff.2 hpre,
    List.filterMap_eq_nil_iff.2 hpost, filterMap_reloadTo?_fanOut]
  by_cases htu : t = u
  · simp [htu]
  · simp [htu]

/-- Events added at the end are the new ones. -/
theorem newEvents_eq {s t : State} {es : List Event} (h : t.events = s.events ++ es) : newEvents s t = es := by
  rw [newEvents, h, List.drop_left]

/-- A state reached by one fan-out, with events around it that write no reload. -/
theorem shadowAt_eq_lastReload_of_fanOut {s t : State} {u k : TimerIndex} {r : Word} {pre post : List Event}
    (hu : u.toNat < s.nTimer) (hpre : ∀ e ∈ pre, reloadTo? u e = none) (hpost : ∀ e ∈ post, reloadTo? u e = none)
    (hshadow : t.shadow = s.shadow.set k.toNat r)
    (hevents : t.events = s.events ++ (pre ++ fanOut s k r ++ post)) :
    shadowAt t u = (lastReload u (newEvents s t)).getD (shadowAt s u) := by
  have hset : shadowAt t u = shadowAt (setShadow k r s) u := by rw [shadowAt, hshadow, shadowAt, setShadow_shadow]
  rw [newEvents_eq hevents, lastReload_fanOut hpre hpost, hset, shadowAt_setShadow]
  by_cases hk : k = u
  · subst hk
    simp [hu]
  · simp [hk]

/-- A state with the old shadows, reached with events that write no reload. -/
theorem shadowAt_eq_lastReload_of_no_reload {s t : State} {u : TimerIndex} {es : List Event}
    (hshadow : t.shadow = s.shadow) (hevents : t.events = s.events ++ es) (hes : ∀ e ∈ es, reloadTo? u e = none) :
    shadowAt t u = (lastReload u (newEvents s t)).getD (shadowAt s u) := by
  rw [newEvents_eq hevents, lastReload_eq_none hes, shadowAt, hshadow, Option.getD_none, shadowAt]

/-- CONFIG and the readbacks emit nothing; INIT, DEINIT, STOP and SETDUTY write no reload; the others fan out once. -/
theorem shadowAt_eq_lastReload_of_effect {i : Instr} {s t : State} {u : TimerIndex} (h : CommandEffect s i t)
    (hu : u.toNat < s.nTimer) : shadowAt t u = (lastReload u (newEvents s t)).getD (shadowAt s u) := by
  cases h with
  | config | rddesc | rdeng => exact shadowAt_eq_lastReload_of_no_reload (es := []) rfl (by simp) (by simp)
  | initRegistered | initUnregistered | deinit | stop =>
    exact shadowAt_eq_lastReload_of_no_reload (es := [_]) rfl rfl (by simp [reloadTo?])
  | setduty => exact shadowAt_eq_lastReload_of_no_reload (es := [_, _]) rfl rfl (by simp [reloadTo?])
  | @start d =>
    exact shadowAt_eq_lastReload_of_fanOut (k := (descAt s d).tmr) (r := reloadValue 100 (descAt s d).cs.toNat)
      (pre := [.wrCompare (descAt s d).tmr (descAt s d).ch 0]) (post := [.pwmStart (descAt s d).tmr (descAt s d).ch])
      hu (by simp [reloadTo?]) (by simp [reloadTo?]) (by simp) (by simp)
  | setper | setfreq =>
    rw [changePeriod_eq]
    exact shadowAt_eq_lastReload_of_fanOut (pre := []) (post := []) hu (by simp) (by simp)
      (applyReload_shadow ..) (by simp)

/-- Settles O45: a command without effect emits nothing and keeps the shadows. -/
theorem shadowIsLastEmittedReload : Obligations.ShadowIsLastEmittedReload := by
  intro i s t u h hu
  obtain ⟨c, -, rfl⟩ | ⟨v, he, rfl⟩ := exec_cases h
  · exact shadowAt_eq_lastReload_of_no_reload (es := []) rfl (by simp) (by simp)
  · have htracks := shadowAt_eq_lastReload_of_effect he hu
    exact htracks

end Sys2Proof.Claims
end

/-! ### The invariant -/

section
namespace Sys2Proof.Machine

open Sys2Proof Sys2Proof.Claims

/-! #### At reset -/

theorem mem_desc_resetWith {p : Config.Params} {d : Desc} (h : d ∈ (State.resetWith p).desc) : d = Desc.reset :=
  List.eq_of_mem_replicate h

theorem desc_reset_good (n : Nat) : Desc.reset.Good n := ⟨Nat.zero_le _, Bool.noConfusion, fun _ => rfl⟩

@[simp] theorem regList_resetWith (p : Config.Params) : regList (State.resetWith p) = [] := rfl

theorem regSlot_resetWith (p : Config.Params) : ∀ x ∈ (State.resetWith p).regSlot.toList, x = 0 := by
  simp [State.resetWith]

theorem registryGood_resetWith (p : Config.Params) : (State.resetWith p).RegistryGood := by
  refine ⟨?_, Nat.zero_le _, ?_, fun x hx => regSlot_resetWith p x (List.mem_of_mem_drop hx)⟩
  · rw [regList_resetWith]
    exact List.nodup_nil
  · rw [regList_resetWith]
    exact fun j hj => absurd hj List.not_mem_nil

@[simp] theorem nDesc_resetWith (p : Config.Params) : (State.resetWith p).nDesc = p.nDesc := List.length_replicate

@[simp] theorem nTimer_resetWith (p : Config.Params) : (State.resetWith p).nTimer = p.nTimer := List.length_replicate

@[simp] theorem params_resetWith (p : Config.Params) : (State.resetWith p).params = p := by
  rw [State.params, nDesc_resetWith, nTimer_resetWith]
  rfl

/-- REG.count, LAST_OP and CODE are all 0. -/
theorem statusWord_resetWith (p : Config.Params) : statusWord (State.resetWith p) = 0 := by
  simp [statusWord, State.resetWith, codeBits]

theorem descsGood_resetWith (p : Config.Params) : (State.resetWith p).DescsGood := fun d hd => by
  rw [mem_desc_resetWith hd]
  exact desc_reset_good _

theorem inv_resetWith {p : Config.Params} (hp : p.Legal) : (State.resetWith p).Inv := by
  refine ⟨?_, descsGood_resetWith p, registryGood_resetWith p, fun e he => absurd he List.not_mem_nil⟩
  rw [params_resetWith]
  exact hp

theorem legal_defaultParams : Config.defaultParams.Legal := by decide

/-! #### Each update of the state -/

/-- A slot in use drives one of the compare registers 1..5 of an existing timer (10_state.md R29). -/
theorem target_of_present {s : State} (h : s.DescsGood) {d : DescIndex} (hp : present s d = true) :
    (descAt s d).tmr.toNat < s.nTimer ∧ 1 ≤ (descAt s d).ch.toNat ∧ (descAt s d).ch.toNat ≤ 5 := by
  obtain ⟨hd, hcfg⟩ := (present_iff s d).1 hp
  obtain ⟨-, htarget, -⟩ := h _ (descAt_mem hd)
  obtain ⟨hlo, hhi, ht⟩ := htarget hcfg
  exact ⟨ht, hlo, hhi⟩

theorem duty_le_of_present {s : State} (h : s.DescsGood) {d : DescIndex} (hp : present s d = true) :
    (descAt s d).duty.toNat ≤ 1000 := (h _ (descAt_mem (lt_of_present hp))).1

theorem inv_emitAll {s : State} (h : s.Inv) {es : List Event} (hes : ∀ e ∈ es, eventGood s.nTimer e = true) :
    (emitAll es s).Inv := by
  obtain ⟨hp, hd, hr, he⟩ := h
  exact ⟨hp, hd, hr, fun e hmem => (List.mem_append.1 hmem).elim (he e) (hes e)⟩

theorem inv_emit {s : State} (h : s.Inv) {e : Event} (he : eventGood s.nTimer e = true) : (emit e s).Inv :=
  inv_emitAll h (by simpa using he)

theorem inv_setShadow {s : State} (h : s.Inv) (t : TimerIndex) (r : Word) : (setShadow t r s).Inv := by
  obtain ⟨hp, hd, hr, he⟩ := h
  have hn : (setShadow t r s).nTimer = s.nTimer := nTimer_setShadow t r s
  have hparams : (setShadow t r s).params = s.params := by rw [State.params, hn]; rfl
  refine ⟨?_, ?_, hr, ?_⟩
  · rwa [hparams]
  · rwa [State.DescsGood, hn]
  · rwa [State.EventsGood, hn]

theorem params_modDesc (i : DescIndex) (f : Desc → Desc) (s : State) : (modDesc i f s).params = s.params := by
  rw [State.params, nDesc_modDesc]
  rfl

/-- Writing a slot keeps the invariant where the slot is configured and good after the write. -/
theorem inv_modDesc {s : State} (h : s.Inv) {i : DescIndex} {f : Desc → Desc}
    (hgood : (f (descAt s i)).Good s.nTimer) (hcfg : (f (descAt s i)).cfg = true) : (modDesc i f s).Inv := by
  obtain ⟨hp, hd, ⟨hnodup, hcap, hpresent, hzero⟩, he⟩ := h
  refine ⟨?_, fun d hmem => ?_, ⟨hnodup, hcap, fun j hj => ?_, hzero⟩, he⟩
  · rwa [params_modDesc]
  · obtain hold | ⟨-, rfl⟩ := mem_desc_modDesc hmem
    · exact hd d hold
    · exact hgood
  · obtain ⟨hlt, hold⟩ := (present_iff s j).1 (hpresent j hj)
    rw [present_iff, nDesc_modDesc, descAt_modDesc]
    refine ⟨hlt, ?_⟩
    split
    · exact hcfg
    · exact hold

/-- A write that keeps the configuration of a present slot needs only a duty in range. -/
theorem inv_modDesc_of_present {s : State} (h : s.Inv) {i : DescIndex} (hp : present s i = true) {f : Desc → Desc}
    (hch : ∀ d, (f d).ch = d.ch) (htmr : ∀ d, (f d).tmr = d.tmr) (hcfg : ∀ d, (f d).cfg = d.cfg)
    (hduty : (f (descAt s i)).duty.toNat ≤ 1000) : (modDesc i f s).Inv := by
  have hconf : (f (descAt s i)).cfg = true := (hcfg _).trans ((present_iff s i).1 hp).2
  obtain ⟨ht, hlo, hhi⟩ := target_of_present h.2.1 hp
  refine inv_modDesc h ⟨hduty, fun _ => ?_, fun hno => ?_⟩ hconf
  · rw [hch, htmr]
    exact ⟨hlo, hhi, ht⟩
  · rw [hconf] at hno
    cases hno

theorem inv_appendReg {s : State} (h : s.Inv) {i : DescIndex} (hp : present s i = true) (hr : i ∉ regList s)
    (hc : s.regCount.toNat ≠ 16) : (appendReg i s).Inv := by
  obtain ⟨hparams, hd, ⟨hnodup, hcap, hpresent, hzero⟩, he⟩ := h
  have hlt : s.regCount.toNat < 16 := lt_of_le_of_ne hcap hc
  have hcount := regCount_appendReg hlt i
  have hlist := regList_appendReg hlt i
  refine ⟨hparams, hd, ⟨?_, ?_, fun j hj => ?_, fun x hx => ?_⟩, he⟩
  · rw [hlist]
    exact List.nodup_append.2 ⟨hnodup, List.nodup_singleton i, by simpa using fun j hj (h : j = i) => hr (h ▸ hj)⟩
  · rw [hcount]
    exact hlt
  · rw [hlist, List.mem_append, List.mem_singleton] at hj
    obtain hj | rfl := hj
    · exact hpresent j hj
    · exact hp
  · rw [hcount, drop_appendReg i (Nat.lt_add_one _), ← List.drop_drop] at hx
    exact hzero x (List.mem_of_mem_drop hx)

/-- The fan-out on an existing timer: its siblings are registered, so they are present and have good targets. -/
theorem inv_applyReload {s : State} (h : s.Inv) {t : TimerIndex} (ht : t.toNat < s.nTimer) (r : Word) :
    (applyReload t r s).Inv := by
  have heq : applyReload t r s = setShadow t r (emitAll (fanOut s t r) s) := applyReload_eq_fanOut t r s
  rw [heq]
  refine inv_setShadow (inv_emitAll h fun e he => ?_) t r
  obtain rfl | rfl | ⟨j, hj, rfl⟩ | rfl | rfl := mem_fanOut.1 he
  · rfl
  · simpa [eventGood] using ht
  · obtain ⟨-, hd, ⟨-, -, hpresent, -⟩, -⟩ := h
    obtain ⟨hreg, -, -⟩ := (mem_siblings s t j).1 hj
    obtain ⟨-, hch⟩ := target_of_present hd (hpresent j hreg)
    simpa [siblingEvent, eventGood] using ⟨ht, hch⟩
  · rfl
  · rfl

/-! #### Each command -/

theorem inv_changePeriod {s : State} (h : s.Inv) {d : DescIndex} (hp : present s d = true) (v : Word) :
    (changePeriod d v s).Inv := by
  obtain ⟨ht, -⟩ := target_of_present h.2.1 hp
  have hmod : (modDesc d (withPeriod v) s).Inv :=
    inv_modDesc_of_present h hp (fun _ => rfl) (fun _ => rfl) (fun _ => rfl) (duty_le_of_present h.2.1 hp)
  refine inv_applyReload hmod ?_ _
  rwa [descAt_modDesc_field (·.tmr) (f := withPeriod v) (fun _ => rfl)]

theorem configure_good {n : Nat} {t : TimerIndex} {ch : Channel} {d : Desc} (ht : t.toNat < n)
    (hch : 1 ≤ ch.toNat ∧ ch.toNat ≤ 5) (hd : d.duty.toNat ≤ 1000) (v : Word) : (configure t ch v d).Good n :=
  ⟨hd, fun _ => ⟨hch.1, hch.2, ht⟩, Bool.noConfusion⟩

theorem toNat_ofInt_permille {p : Int} (h : 0 ≤ p ∧ p ≤ 1000) : (BitVec.ofInt 10 p).toNat ≤ 1000 := by
  rw [BitVec.toNat_ofInt]
  omega

theorem CommandEffect.inv {i : Instr} {s t : State} (he : CommandEffect s i t) (h : s.Inv) : t.Inv := by
  have hd : s.DescsGood := h.2.1
  cases he with
  | config hlt ht hch hs => exact inv_modDesc h (configure_good ht hch (hd _ (descAt_mem hlt)).1 _) rfl
  | initRegistered hp hr | deinit hp =>
    exact inv_modDesc_of_present (inv_emit h (by simpa [eventGood] using target_of_present hd hp)) hp
      (fun _ => rfl) (fun _ => rfl) (fun _ => rfl) (Nat.zero_le _)
  | @initUnregistered d x hp hr hc =>
    have hhook : (emit (.hookInit (descAt s d).tmr (descAt s d).ch) s).Inv :=
      inv_emit h (decide_eq_true (target_of_present hd hp))
    have hslot := inv_modDesc_of_present (f := deactivate ∘ clearCache) hhook hp
      (fun _ => rfl) (fun _ => rfl) (fun _ => rfl) (Nat.zero_le _)
    refine inv_appendReg hslot ?_ hr hc
    rwa [present_modDesc (f := deactivate ∘ clearCache) fun _ => rfl]
  | @start d x hp hs =>
    have htarget := target_of_present hd hp
    have hcmp : (emit (.wrCompare (descAt s d).tmr (descAt s d).ch 0) s).Inv :=
      inv_emit h (decide_eq_true htarget)
    have hfan := inv_applyReload hcmp htarget.1 (reloadValue 100 (descAt s d).cs.toNat)
    refine inv_modDesc_of_present (inv_emit hfan ?_) ?_ (fun _ => rfl) (fun _ => rfl) (fun _ => rfl) (Nat.zero_le _)
    · simpa [eventGood, State.nTimer] using htarget
    · rwa [present_emit, present_applyReload, present_emit]
  | stop hp =>
    exact inv_modDesc_of_present (inv_emit h (by simpa [eventGood] using target_of_present hd hp)) hp
      (fun _ => rfl) (fun _ => rfl) (fun _ => rfl) (duty_le_of_present hd hp)
  | setper hp => exact inv_changePeriod h hp _
  | setduty hp hf hrange hne =>
    exact inv_modDesc_of_present (inv_emitAll h (by simpa [eventGood] using target_of_present hd hp)) hp
      (fun _ => rfl) (fun _ => rfl) (fun _ => rfl) (toNat_ofInt_permille hrange)
  | setfreq hp hq => exact inv_changePeriod h hp _
  | rddesc | rdeng => exact h

theorem inv_of_exec {i : Instr} {s t : State} (h : s.Inv) (hx : exec i s = .next t) : t.Inv := by
  obtain ⟨c, -, rfl⟩ | ⟨u, he, rfl⟩ := exec_cases hx
  · exact h
  · exact he.inv h

theorem params_platformReset (s : State) : (platformReset s).params = s.params := params_resetWith s.params

/-- The platform's reset keeps the history of the event port, and the timers it addresses still exist. -/
theorem inv_platformReset {s : State} (h : s.Inv) : (platformReset s).Inv := by
  obtain ⟨hp, -, -, he⟩ := h
  obtain ⟨hparams, hd, hr, -⟩ := inv_resetWith hp
  have hn : (platformReset s).nTimer = s.nTimer := nTimer_resetWith s.params
  refine ⟨hparams, hd, hr, ?_⟩
  rwa [State.EventsGood, hn]

end Sys2Proof.Machine
end

section
namespace Sys2Proof.Claims

open Sys2Proof.Machine

/-- Settles O14: an access leaves the invariant's fields alone, a command keeps it, a reset establishes it again. -/
theorem everyStepKeepsInv : Obligations.EveryStepKeepsInv := by
  intro s t h hstep
  obtain ⟨-, rfl⟩ | ⟨rest, r, rfl⟩ | ⟨rest, v, rfl⟩ | ⟨rest, v, i, u, hx, rfl⟩ | ⟨rest, v, op, rfl⟩ | ⟨rest, rfl⟩ :=
    step_cases hstep
  · exact h
  · exact h
  · exact h
  · have hbefore : State.Inv { s with inputs := rest, command := v } := h
    have hafter : u.Inv := inv_of_exec hbefore hx
    exact hafter
  · exact h
  · have hbefore : State.Inv { s with inputs := rest } := h
    exact inv_platformReset hbefore

/-- Settles O15: only a command and a reset write the tables whose sizes are parameters, and both keep the sizes. -/
theorem stepsKeepParameters : Obligations.StepsKeepParameters := by
  intro s t hstep
  obtain ⟨-, rfl⟩ | ⟨rest, r, rfl⟩ | ⟨rest, v, rfl⟩ | ⟨rest, v, i, u, hx, rfl⟩ | ⟨rest, v, op, rfl⟩ | ⟨rest, rfl⟩ :=
    step_cases hstep
  · rfl
  · rfl
  · rfl
  · obtain ⟨-, -, hparams, -⟩ := commandFrame i _ u hx
    exact hparams
  · rfl
  · exact params_platformReset _

/-- Settles O13. -/
theorem invHoldsAtReset : Obligations.InvHoldsAtReset := ⟨inv_resetWith legal_defaultParams, fun _ => inv_resetWith⟩

/-- Settles O11. -/
theorem resetValues : Obligations.ResetValues := fun p =>
  ⟨fun _ => mem_desc_resetWith, nDesc_resetWith p, nTimer_resetWith p, regList_resetWith p, rfl, regSlot_resetWith p,
    fun _ => List.eq_of_mem_replicate, rfl, rfl, statusWord_resetWith p, rfl⟩

theorem length_of_lanesHold {lanes : List Byte} {v : Word} (h : LanesHold lanes v) : lanes.length = 4 := by
  obtain ⟨b0, b1, b2, b3, rfl, -⟩ := h
  rfl

theorem wordOfLanes_of_lanesHold {lanes : List Byte} {v : Word} (h : LanesHold lanes v) : wordOfLanes lanes = v := by
  obtain ⟨b0, b1, b2, b3, rfl, hv⟩ := h
  exact BitVec.eq_of_toNat_eq ((toNat_wordOfLanes b0 b1 b2 b3).trans hv.symm)

/-- A write of COMMAND on four lanes executes the word on them with OPERAND, and answers. -/
theorem step_command_write {s : State} {lanes : List Byte} {h : Word} {rest : List Input}
    (hin : s.inputs = .write (s.straps.engineBase + 4) lanes :: rest) (hl : LanesHold lanes h) :
    step s = respondAfter .writeDone
      (execute (commandWord h s.operand) { s with inputs := rest, command := h }) := by
  rw [step_input hin]
  have hw := memWrite_offset (s := { s with inputs := rest }) (length_of_lanesHold hl) .command
  rwa [wordOfLanes_of_lanesHold hl] at hw

/-- Settles O4: the lanes are the word of COMMAND, and every command answers a next state. -/
theorem stepRunsDecodedCommand : Obligations.StepRunsDecodedCommand := by
  intro s lanes h rest i hin hl hdec
  refine ⟨_, exec_eq_finish i _, ?_⟩
  rw [step_command_write hin hl, execute, hdec]
  exact congrArg (respondAfter .writeDone) (exec_eq_finish i _)

end Sys2Proof.Claims
end

/-! PROOFS of the family 20_memory.md: the events a command emits, what the update observer sees while they are
performed, what they leave in the timers' registers, and the accesses to the window. -/

/-! ### The events of a command -/

section
namespace Sys2Proof.Machine

open Sys2Proof Sys2Proof.Claims

/-- The events of a command that ends with OK, read from the state before it. -/
def eventsOnOk (s : State) : Instr → List Event
  | .config _ _ _ _ | .rddesc _ _ | .rdeng _ => []
  | .init d _ => [.hookInit (descAt s d).tmr (descAt s d).ch]
  | .deinit d _ => [.hookDeinit (descAt s d).tmr (descAt s d).ch]
  | .start d _ =>
    .wrCompare (descAt s d).tmr (descAt s d).ch 0 ::
      (fanOut s (descAt s d).tmr (reloadValue 100 (descAt s d).cs.toNat) ++
        [.pwmStart (descAt s d).tmr (descAt s d).ch])
  | .stop d _ => [.pwmStop (descAt s d).tmr (descAt s d).ch]
  | .setper d v => fanOut s (descAt s d).tmr (reloadValue v.toNat (descAt s d).cs.toNat)
  | .setduty d f =>
    [.wrCompare (descAt s d).tmr (descAt s d).ch
      (compareValue ((dutyConv s.straps.dutyMul f).getD 0).toNat (shadowAt s (descAt s d).tmr)), .barrier]
  | .setfreq d v =>
    fanOut s (descAt s d).tmr
      (reloadValue (BitVec.ofNat 32 ((freqToPeriod v.toNat).getD 0)).toNat (descAt s d).cs.toNat)

theorem CommandEffect.newEvents_eq {i : Instr} {s t : State} (h : CommandEffect s i t) :
    newEvents s t = eventsOnOk s i := by
  refine Claims.newEvents_eq ?_
  cases h with
  | setduty hp hf => simp [eventsOnOk, hf]
  | setfreq hp hq => simp [eventsOnOk, changePeriod_eq, hq]
  | _ => simp [eventsOnOk, changePeriod_eq]

/-- A command that answers `next t` emits nothing, or ends with OK and emits its events. -/
theorem exec_newEvents {i : Instr} {s t : State} (h : exec i s = .next t) :
    (∃ c, c ≠ .ok ∧ t = { s with code := c, lastOp := opOf i } ∧ newEvents s t = []) ∨
    (∃ u, CommandEffect s i u ∧ t = { u with code := .ok, lastOp := opOf i } ∧ newEvents s t = eventsOnOk s i) := by
  obtain ⟨c, hc, rfl⟩ | ⟨u, he, rfl⟩ := exec_cases h
  · exact .inl ⟨c, hc, rfl, newEvents_eq (List.append_nil _).symm⟩
  · exact .inr ⟨u, he, rfl, he.newEvents_eq⟩

/-- The events of a fan-out between its CS_ENTER and its CS_EXIT. -/
def fanOutWrites (s : State) (t : TimerIndex) (r : Word) : List Event :=
  .wrReload t r :: (siblings s t).map (siblingEvent s t r)

theorem fanOut_eq (s : State) (t : TimerIndex) (r : Word) :
    fanOut s t r = .csEnter :: (fanOutWrites s t r ++ [.csExit, .barrier]) := rfl

/-- The events that open or close a critical section. -/
def marksSection : Event → Bool
  | .csEnter | .csExit => true
  | _ => false

theorem marksSection_of_mem_fanOutWrites {s : State} {t : TimerIndex} {r : Word} {e : Event}
    (h : e ∈ fanOutWrites s t r) : marksSection e = false := by
  obtain rfl | h := List.mem_cons.1 h
  · rfl
  · obtain ⟨j, -, rfl⟩ := List.mem_map.1 h
    rfl

/-! #### Sections and barriers -/

theorem sectionsClosed_append {es : List Event} (h : ∀ e ∈ es, marksSection e = false) (inside : Bool)
    (rest : List Event) : sectionsClosed inside (es ++ rest) = sectionsClosed inside rest := by
  induction es with
  | nil => rfl
  | cons e es ih =>
    obtain ⟨he, hes⟩ := List.forall_mem_cons.1 h
    cases e with
    | csEnter | csExit => cases he
    | _ => exact ih hes

/-- A fan-out opens one section and closes it. -/
theorem sectionsClosed_fanOut_append (s : State) (t : TimerIndex) (r : Word) (rest : List Event) :
    sectionsClosed false (fanOut s t r ++ rest) = sectionsClosed false rest := by
  have hwrites : ∀ e ∈ fanOutWrites s t r, marksSection e = false := fun _ => marksSection_of_mem_fanOutWrites
  rw [fanOut_eq, List.cons_append, List.append_assoc]
  exact sectionsClosed_append hwrites true ([.csExit, .barrier] ++ rest)

theorem count_fanOutWrites {s : State} {t : TimerIndex} {r : Word} {e : Event} (hr : ∀ u x, e ≠ .wrReload u x)
    (hc : ∀ u ch x, e ≠ .wrCompare u ch x) : (fanOutWrites s t r).count e = 0 := by
  refine List.count_eq_zero.2 fun h => ?_
  obtain rfl | h := List.mem_cons.1 h
  · exact hr _ _ rfl
  · obtain ⟨j, -, rfl⟩ := List.mem_map.1 h
    exact hc _ _ _ rfl

theorem count_csEnter_fanOut (s : State) (t : TimerIndex) (r : Word) : (fanOut s t r).count .csEnter = 1 := by
  simp [fanOut_eq, count_fanOutWrites]

theorem count_barrier_fanOut (s : State) (t : TimerIndex) (r : Word) : (fanOut s t r).count .barrier = 1 := by
  simp [fanOut_eq, count_fanOutWrites]

theorem getLast?_fanOut (s : State) (t : TimerIndex) (r : Word) : (fanOut s t r).getLast? = some .barrier :=
  List.getLast?_append

theorem sectionsClosed_eventsOnOk (s : State) (i : Instr) : sectionsClosed false (eventsOnOk s i) = true := by
  cases i with
  | start d x => exact sectionsClosed_fanOut_append ..
  | setper | setfreq =>
    rw [eventsOnOk, ← List.append_nil (fanOut ..), sectionsClosed_fanOut_append]
    rfl
  | _ => rfl

theorem count_csEnter_eventsOnOk (s : State) (i : Instr) :
    (eventsOnOk s i).count .csEnter = if writesReload i = true then 1 else 0 := by
  cases i with
  | start | setper | setfreq => simp [eventsOnOk, writesReload, count_csEnter_fanOut]
  | _ => rfl

theorem count_barrier_eventsOnOk (s : State) (i : Instr) :
    (eventsOnOk s i).count .barrier = if writesReload i = true ∨ opOf i = 0x7 then 1 else 0 := by
  cases i with
  | start | setper | setfreq => simp [eventsOnOk, writesReload, count_barrier_fanOut]
  | _ => simp [eventsOnOk, writesReload, opOf]

theorem getLast?_eventsOnOk {i : Instr} (hi : writesReload i = true ∧ opOf i ≠ 0x4 ∨ opOf i = 0x7) (s : State) :
    (eventsOnOk s i).getLast? = some .barrier := by
  cases i with
  | setper | setfreq => exact getLast?_fanOut ..
  | setduty => rfl
  | _ => simp [writesReload, opOf] at hi

end Sys2Proof.Machine

namespace Sys2Proof.Claims

open Sys2Proof.Machine

/-- Settles O44: a command emits nothing, or the events of its effect. -/
theorem sectionsAndBarriers : Obligations.SectionsAndBarriers := by
  intro i s t h
  obtain ⟨c, hc, rfl, hev⟩ | ⟨u, -, rfl, hev⟩ := exec_newEvents h <;> rw [hev]
  · simp [hc, sectionsClosed]
  · simp only [true_and]
    exact ⟨sectionsClosed_eventsOnOk s i, count_csEnter_eventsOnOk s i, count_barrier_eventsOnOk s i,
      fun _ hi => getLast?_eventsOnOk hi s⟩

end Sys2Proof.Claims
end

/-! ### What the update observer sees -/

section
namespace Sys2Proof.Machine

open Sys2Proof Sys2Proof.Claims

section
variable {hook : HookEffect} {w : Nat} {P : Platform} {V : List TimerRegs}

theorem eq_timers_of_mem_visible (h : V ∈ visible P) : V = P.timers := by
  unfold visible at h
  split at h
  · cases h
  · exact List.mem_singleton.1 h

theorem perform_inSection {e : Event} (he : marksSection e = false) : (perform hook w e P).inSection = P.inSection := by
  cases e with
  | csEnter | csExit => cases he
  | _ => rfl

/-- A view during a row of events is one during its first part or one during the rest. -/
theorem mem_observerViews_append {as bs : List Event} (h : V ∈ observerViews hook w (as ++ bs) P) :
    V ∈ observerViews hook w as P ∨ V ∈ observerViews hook w bs (performAll hook w as P) := by
  induction as generalizing P with
  | nil => exact .inr h
  | cons a as ih =>
    obtain h | h := List.mem_append.1 h
    · exact .inl (List.mem_append_left _ h)
    · exact (ih h).imp_left (List.mem_append_right _)

theorem mem_observerViews_singleton {e : Event} (h : V ∈ observerViews hook w [e] P) :
    V = P.timers ∨ V = (perform hook w e P).timers :=
  (List.mem_append.1 h).imp eq_timers_of_mem_visible eq_timers_of_mem_visible

/-- Inside a critical section the update observer sees nothing (20_memory.md R58). -/
theorem observerViews_eq_nil {es : List Event} (hes : ∀ e ∈ es, marksSection e = false) (hP : P.inSection = true) :
    observerViews hook w es P = [] := by
  induction es generalizing P with
  | nil => exact if_pos hP
  | cons e es ih =>
    obtain ⟨he, hes⟩ := List.forall_mem_cons.1 hes
    rw [observerViews_cons, ih hes ((perform_inSection he).trans hP), visible, if_pos hP, List.append_nil]

/-- The end of a fan-out changes no timer. -/
theorem eq_timers_of_mem_exit_barrier (h : V ∈ observerViews hook w [.csExit, .barrier] P) : V = P.timers := by
  obtain h | h := List.mem_append.1 h
  · exact eq_timers_of_mem_visible h
  · obtain h | h := mem_observerViews_singleton h
    · exact h
    · exact h

/-- A fan-out shows the timers before it and the timers after it only (20_memory.md R59). -/
theorem view_of_fanOut {s : State} {t : TimerIndex} {r : Word} (h : V ∈ observerViews hook w (fanOut s t r) P) :
    V = P.timers ∨ V = (performAll hook w (fanOut s t r) P).timers := by
  rw [fanOut_eq] at h ⊢
  obtain h | h := List.mem_append.1 h
  · exact .inl (eq_timers_of_mem_visible h)
  · right
    rw [performAll_cons, performAll_append]
    obtain h | h := mem_observerViews_append h
    · rw [observerViews_eq_nil (fun _ => marksSection_of_mem_fanOutWrites) rfl] at h
      cases h
    · have hsame := eq_timers_of_mem_exit_barrier h
      exact hsame

end

/-! #### The registers in sight -/

/-- Changing a timer without its reload and compare registers changes no register in sight. -/
theorem map_registersOf_modify {f : TimerRegs → TimerRegs} (hf : ∀ R, registersOf (f R) = registersOf R) (n : Nat)
    (T : List TimerRegs) : (T.modify n f).map registersOf = T.map registersOf := by
  refine List.ext_getElem? fun k => ?_
  rw [List.getElem?_map, List.getElem?_map, List.getElem?_modify]
  cases T[k]? with
  | none => rfl
  | some R =>
    by_cases hk : n = k
    · simp [hk, hf]
    · simp [hk]

@[simp] theorem registersOf_writeGenerating (ch : Channel) (g : Bool) (R : TimerRegs) :
    registersOf (writeGenerating ch g R) = registersOf R := by
  simp [registersOf]

section
variable {hook : HookEffect} {w : Nat} {P : Platform} {V : List TimerRegs} {s : State}

/-- START shows the timers before it, these with its own compare written, and the registers after it
(70_reset_and_hazards.md R159): PWM_START changes none of them. -/
theorem view_of_start {d : DescIndex} {x : Word} (h : V ∈ observerViews hook w (eventsOnOk s (.start d x)) P) :
    V = P.timers ∨ V = (perform hook w (.wrCompare (descAt s d).tmr (descAt s d).ch 0) P).timers ∨
    V.map registersOf = (performAll hook w (eventsOnOk s (.start d x)) P).timers.map registersOf := by
  have hgen (Q : Platform) : (perform hook w (.pwmStart (descAt s d).tmr (descAt s d).ch) Q).timers.map registersOf =
      Q.timers.map registersOf := map_registersOf_modify (registersOf_writeGenerating _ true) _ _
  simp only [eventsOnOk, performAll_cons, performAll_append, performAll_nil, hgen] at h ⊢
  obtain h | h := List.mem_append.1 h
  · exact .inl (eq_timers_of_mem_visible h)
  obtain h | h := mem_observerViews_append h
  · obtain rfl | rfl := view_of_fanOut h
    · exact .inr (.inl rfl)
    · exact .inr (.inr rfl)
  obtain rfl | rfl := mem_observerViews_singleton h
  · exact .inr (.inr rfl)
  · exact .inr (.inr (hgen _))

/-- Every command shows the timers before it and the registers after it only, but START its own compare write too. -/
theorem view_of_eventsOnOk {i : Instr} (h : V ∈ observerViews hook w (eventsOnOk s i) P) :
    V = P.timers ∨
    (∃ d x, i = .start d x ∧ V = (perform hook w (.wrCompare (descAt s d).tmr (descAt s d).ch 0) P).timers) ∨
    V.map registersOf = (performAll hook w (eventsOnOk s i) P).timers.map registersOf := by
  cases i with
  | config | rddesc | rdeng => exact .inl (eq_timers_of_mem_visible h)
  | init | deinit | stop =>
    obtain rfl | rfl := mem_observerViews_singleton h
    · exact .inl rfl
    · exact .inr (.inr rfl)
  | setduty =>
    obtain h | h := List.mem_append.1 h
    · exact .inl (eq_timers_of_mem_visible h)
    · obtain rfl | rfl := mem_observerViews_singleton h
      · exact .inr (.inr rfl)
      · exact .inr (.inr rfl)
  | setper | setfreq =>
    obtain rfl | rfl := view_of_fanOut h
    · exact .inl rfl
    · exact .inr (.inr rfl)
  | start d x => exact (view_of_start h).imp_right (.imp_left fun h => ⟨d, x, rfl, h⟩)
end

end Sys2Proof.Machine

namespace Sys2Proof.Claims

open Sys2Proof.Machine

theorem truncTimer_zero (w : Nat) : truncTimer w 0 = 0 := by simp [truncTimer]

/-- Settles O50: SETPER and SETFREQ emit one fan-out, START one between two events of its own. -/
theorem observerSeesNoTornReload : Obligations.ObserverSeesNoTornReload := by
  intro hook i s t P h _ V hV
  obtain ⟨c, -, -, hev⟩ | ⟨u, -, -, hev⟩ := exec_newEvents h <;> rw [hev] at hV ⊢
  · have hsame : V = P.timers := eq_timers_of_mem_visible hV
    exact ⟨fun _ => .inl hsame, fun _ _ _ => .inl hsame⟩
  · refine ⟨fun hi => ?_, fun d v hi => ?_⟩
    · cases i with
      | setper | setfreq => exact view_of_fanOut hV
      | _ => simp [opOf] at hi
    · subst hi
      have hstart := view_of_start hV
      rwa [perform_timers, performAtTimers, truncTimer_zero] at hstart

end Sys2Proof.Claims
end

/-! ### What events leave in the timers' registers -/

section
namespace Sys2Proof.Machine

open Sys2Proof Sys2Proof.Claims

/-- A register of a timer that the update observer sees (20_memory.md R45). -/
inductive TimerRegister where
  | reload
  | compare (ch : Channel)

/-- The value of a register; there is none for a channel outside 1..5. -/
def readRegister : TimerRegister → TimerRegs → Option Word
  | .reload, R => some R.reload
  | .compare ch, R => readCmp ch R

/-- The value of a register of timer `u`, if both exist. -/
def registerAt (T : List TimerRegs) (u : TimerIndex) (k : TimerRegister) : Option Word :=
  T[u.toNat]?.bind (readRegister k)

/-- The register an event writes and the value, before it is cut to the timer's width (20_memory.md R55). -/
def writeOf? : Event → Option (TimerIndex × TimerRegister × Word)
  | .wrReload t r => some (t, .reload, r)
  | .wrCompare t ch c => some (t, .compare ch, c)
  | .hookInit _ _ | .hookDeinit _ _ | .pwmStart _ _ | .pwmStop _ _ | .csEnter | .csExit | .barrier => none

/-- The two hook events, whose effect the spec leaves open (93_implementation_defined.md I3). -/
def callsHookEvent : Event → Bool
  | .hookInit _ _ | .hookDeinit _ _ => true
  | _ => false

/-- A hook event performed by these hooks leaves reload and compare registers alone. -/
def LeavesRegisters (hook : HookEffect) (e : Event) : Prop :=
  callsHookEvent e = true → ∀ n R, registersOf (hook n e R) = registersOf R

theorem readRegister_congr {R R' : TimerRegs} (h : registersOf R = registersOf R') (k : TimerRegister) :
    readRegister k R = readRegister k R' := by
  obtain ⟨hreload, hcmp⟩ := Prod.ext_iff.1 h
  cases k with
  | reload => exact congrArg some hreload
  | compare ch => simp only [readRegister, readCmp, show R.cmp = R'.cmp from hcmp]

theorem registerAt_congr {T T' : List TimerRegs} (h : T.map registersOf = T'.map registersOf) (u : TimerIndex)
    (k : TimerRegister) : registerAt T u k = registerAt T' u k := by
  have hu : T[u.toNat]?.map registersOf = T'[u.toNat]?.map registersOf := by
    rw [← List.getElem?_map, h, List.getElem?_map]
  unfold registerAt
  cases hT : T[u.toNat]? with
  | none =>
    rw [hT, Option.map_none, eq_comm, Option.map_eq_none_iff] at hu
    rw [hu]
  | some R =>
    obtain ⟨R', hR', hsame⟩ := Option.map_eq_some_iff.1 (hu.symm.trans (congrArg _ hT))
    rw [hR', Option.bind_some, Option.bind_some, readRegister_congr hsame]

theorem registerAt_modify (T : List TimerRegs) (t u : TimerIndex) (f : TimerRegs → TimerRegs) (k : TimerRegister) :
    registerAt (T.modify t.toNat f) u k =
      if t = u then T[u.toNat]?.bind (fun R => readRegister k (f R)) else registerAt T u k := by
  unfold registerAt
  rw [List.getElem?_modify]
  by_cases htu : t = u
  · subst htu
    cases T[t.toNat]? <;> simp
  · have hne : t.toNat ≠ u.toNat := fun h => htu (BitVec.eq_of_toNat_eq h)
    simp [htu, hne]

theorem channel_ne_zero {ch : Channel} (h : 1 ≤ ch.toNat) : ch ≠ 0 := fun h0 => by simp [h0] at h

/-- A compare register that can be read is one of 1..5. -/
theorem channel_of_readCmp {ch : Channel} {R : TimerRegs} {x : Word} (h : readCmp ch R = some x) :
    ch ≠ 0 ∧ ch.toNat ≤ 5 := by
  unfold readCmp at h
  split at h
  · cases h
  · next h0 =>
    obtain ⟨hlt, -⟩ := Vector.getElem?_eq_some_iff.1 h
    exact ⟨h0, by omega⟩

/-- An event leaves what it writes, cut to the timer's width, in the register it writes. -/
theorem registerAt_of_write {hook : HookEffect} {w n : Nat} {e : Event} {T : List TimerRegs} {u : TimerIndex}
    {k : TimerRegister} {v x : Word} (he : writeOf? e = some (u, k, v)) (hx : registerAt T u k = some x) :
    registerAt (performAtTimers hook w n e T) u k = some (truncTimer w v) := by
  obtain ⟨R, hR, hread⟩ := Option.bind_eq_some_iff.1 hx
  cases e with
  | wrReload t r =>
    simp only [writeOf?, Option.some.injEq, Prod.mk.injEq] at he
    obtain ⟨rfl, rfl, rfl⟩ := he
    rw [performAtTimers, registerAt_modify, if_pos rfl, hR]
    rfl
  | wrCompare t ch c =>
    simp only [writeOf?, Option.some.injEq, Prod.mk.injEq] at he
    obtain ⟨rfl, rfl, rfl⟩ := he
    rw [performAtTimers, registerAt_modify, if_pos rfl, hR]
    exact (readCmp_writeCmp ..).trans (if_pos ⟨rfl, channel_of_readCmp hread⟩)
  | _ => cases he

/-- An event leaves the registers that it does not write. -/
theorem registerAt_of_no_write {hook : HookEffect} {w n : Nat} {e : Event} (he : LeavesRegisters hook e)
    {T : List TimerRegs} {u : TimerIndex} {k : TimerRegister} (hno : ∀ v, writeOf? e ≠ some (u, k, v)) :
    registerAt (performAtTimers hook w n e T) u k = registerAt T u k := by
  cases e with
  | csEnter | csExit | barrier => rfl
  | pwmStart t ch | pwmStop t ch =>
    exact registerAt_congr (map_registersOf_modify (registersOf_writeGenerating _ _) _ _) _ _
  | hookInit t ch | hookDeinit t ch => exact registerAt_congr (map_registersOf_modify (he rfl n) _ _) _ _
  | wrReload t r =>
    rw [performAtTimers, registerAt_modify]
    split
    · next htu =>
      cases k with
      | reload => exact absurd (htu ▸ rfl) (hno r)
      | compare ch => rfl
    · rfl
  | wrCompare t ch c =>
    rw [performAtTimers, registerAt_modify]
    split
    · next htu =>
      have hkeep (R : TimerRegs) : readRegister k (writeCmp ch (truncTimer w c) R) = readRegister k R := by
        cases k with
        | reload => exact congrArg some (writeCmp_reload ..)
        | compare ch' =>
          refine (readCmp_writeCmp ..).trans (if_neg fun ⟨hch, _⟩ => hno c ?_)
          rw [writeOf?, htu, hch]
      simp only [hkeep, registerAt]
    · rfl

/-- A register that holds `v`, or is written, and is written with nothing but `v`, holds `v` after all events. -/
theorem registerAt_performAll {hook : HookEffect} {w : Nat} {es : List Event} {u : TimerIndex} {k : TimerRegister}
    {v x : Word} (hes : ∀ e ∈ es, LeavesRegisters hook e)
    (honly : ∀ e ∈ es, ∀ c, writeOf? e = some (u, k, c) → c = v) {P : Platform}
    (hx : registerAt P.timers u k = some x)
    (hv : x = truncTimer w v ∨ ∃ e ∈ es, writeOf? e = some (u, k, v)) :
    registerAt (performAll hook w es P).timers u k = some (truncTimer w v) := by
  induction es generalizing P x with
  | nil =>
    obtain rfl | ⟨e, he, -⟩ := hv
    · exact hx
    · cases he
  | cons e es ih =>
    obtain ⟨he, hes⟩ := List.forall_mem_cons.1 hes
    obtain ⟨honlye, honly⟩ := List.forall_mem_cons.1 honly
    by_cases hw : ∃ c, writeOf? e = some (u, k, c)
    · obtain ⟨c, hc⟩ := hw
      obtain rfl := honlye c hc
      exact ih hes honly (P := perform hook w e P) ((perform_timers ..).symm ▸ registerAt_of_write hc hx) (.inl rfl)
    · have hkeep := registerAt_of_no_write (w := w) (n := P.performed) (T := P.timers) he (not_exists.1 hw)
      rw [← perform_timers, hx] at hkeep
      refine ih hes honly (P := perform hook w e P) hkeep (hv.imp_right fun ⟨e', hmem, hc⟩ => ⟨e', ?_, hc⟩)
      refine (List.mem_cons.1 hmem).resolve_left ?_
      rintro rfl
      exact hw ⟨v, hc⟩

end Sys2Proof.Machine
end

/-! ### The registers the engine asks for -/

section
namespace Sys2Proof.Machine

open Sys2Proof Sys2Proof.Claims

/-- What a slot asks of a register it drives (42_period_duty.md R105). -/
def asked (s : State) (j : DescIndex) : TimerRegister → Word
  | .reload => shadowAt s (descAt s j).tmr
  | .compare _ => compareValue (descAt s j).duty.toNat (shadowAt s (descAt s j).tmr)

/-- The registers of its timer that a slot drives. -/
def Drives (s : State) (j : DescIndex) (k : TimerRegister) : Prop := k = .reload ∨ k = .compare (descAt s j).ch

theorem slotConsistent_iff (s : State) (T : List TimerRegs) (j : DescIndex) : SlotConsistent s T j ↔
    ∀ k, Drives s j k → registerAt T (descAt s j).tmr k = some (truncTimer s.straps.timerWidth (asked s j k)) := by
  constructor
  · rintro ⟨R, hR, hreload, hcmp⟩ k (rfl | rfl) <;> rw [registerAt, hR]
    · exact congrArg some hreload
    · exact hcmp
  · intro h
    obtain ⟨R, hR, hreload⟩ := Option.bind_eq_some_iff.1 (h .reload (.inl rfl))
    have hcmp := h _ (.inr rfl)
    rw [registerAt, hR] at hcmp
    exact ⟨R, hR, Option.some.inj hreload, hcmp⟩

theorem consistent_congr {s : State} {T T' : List TimerRegs} (h : T.map registersOf = T'.map registersOf)
    (hc : Consistent s T') : Consistent s T := fun j hj ha => by
  rw [slotConsistent_iff]
  intro k hk
  rw [registerAt_congr h]
  exact (slotConsistent_iff s T' j).1 (hc j hj ha) k hk

/-- The registers a present slot drives exist. -/
theorem registerAt_of_drives {s : State} (h : s.DescsGood) {j : DescIndex} (hp : present s j = true)
    {T : List TimerRegs} (hT : T.length = s.nTimer) {k : TimerRegister} (hk : Drives s j k) :
    ∃ x, registerAt T (descAt s j).tmr k = some x := by
  obtain ⟨ht, hlo, hhi⟩ := target_of_present h hp
  rw [registerAt, List.getElem?_eq_getElem (hT ▸ ht), Option.bind_some]
  obtain rfl | rfl := hk
  · exact ⟨_, rfl⟩
  · rw [readRegister, readCmp, if_neg (channel_ne_zero hlo), Vector.getElem?_eq_getElem (by omega)]
    exact ⟨_, rfl⟩

/-! #### What events write -/

/-- Some event among `es` writes `c` to register `k` of timer `u`. -/
def Writes (es : List Event) (u : TimerIndex) (k : TimerRegister) (c : Word) : Prop :=
  ∃ e ∈ es, writeOf? e = some (u, k, c)

variable {s t : State} {i : Instr} {u v : TimerIndex} {j : DescIndex} {k : TimerRegister} {c r : Word}

theorem not_writes_nil : ¬ Writes [] u k c := by simp [Writes]

theorem writes_cons {e : Event} {es : List Event} :
    Writes (e :: es) u k c ↔ writeOf? e = some (u, k, c) ∨ Writes es u k c := by simp [Writes]

theorem writes_append {as bs : List Event} : Writes (as ++ bs) u k c ↔ Writes as u k c ∨ Writes bs u k c := by
  simp [Writes, or_and_right, exists_or]

/-- A fan-out writes its timer's reload once. -/
theorem writes_fanOut_reload : Writes (fanOut s v r) u .reload c ↔ v = u ∧ r = c := by
  simp [Writes, fanOut, writeOf?, or_and_right, exists_or]

/-- A fan-out writes the compares of the siblings on its timer. -/
theorem writes_fanOut_compare {ch : Channel} : Writes (fanOut s v r) u (.compare ch) c ↔
    ∃ j ∈ siblings s v, v = u ∧ (descAt s j).ch = ch ∧ compareValue (descAt s j).duty.toNat r = c := by
  simp [Writes, fanOut, writeOf?, or_and_right, exists_or]

theorem not_writes_fanOut_of_ne (h : v ≠ u) : ¬ Writes (fanOut s v r) u k c := by
  intro hw
  cases k with
  | reload => exact h (writes_fanOut_reload.1 hw).1
  | compare ch =>
    obtain ⟨j, -, hu, -⟩ := writes_fanOut_compare.1 hw
    exact h hu

theorem present_of_mem_regList (h : s.Inv) (hj : j ∈ regList s) : present s j = true := by
  obtain ⟨-, -, ⟨-, -, hpresent, -⟩, -⟩ := h
  exact hpresent j hj

/-- Configured channels are distinct, so a registered slot shares its compare register with no present one. -/
theorem eq_of_same_compare (h : s.Inv) (hd : ChannelsDistinct s) (hj : j ∈ regList s) {d : DescIndex}
    (hp : present s d = true) (ht : (descAt s d).tmr = (descAt s j).tmr) (hch : (descAt s d).ch = (descAt s j).ch) :
    d = j :=
  hd d j hp (present_of_mem_regList h hj) ht hch

/-- A running slot asked the same of register `k` before the command. -/
structure AskedBefore (s t : State) (j : DescIndex) (k : TimerRegister) : Prop where
  registered : j ∈ regList s
  active : (descAt s j).state = .active
  tmr_eq : (descAt s j).tmr = (descAt t j).tmr
  drives : Drives s j k
  asked_eq : asked s j k = asked t j k

/-- The events `es` between `s` and `t` write to register `k` of slot `j` nothing but what the slot asks for in `t`, and
do write it unless it was asked for before. -/
def Serves (es : List Event) (s t : State) (j : DescIndex) (k : TimerRegister) : Prop :=
  (∀ c, Writes es (descAt t j).tmr k c → c = asked t j k) ∧
  (AskedBefore s t j k ∨ Writes es (descAt t j).tmr k (asked t j k))

/-- Events that write nothing serve a slot that is as it was. -/
theorem serves_of_not_writes {es : List Event} (hes : ∀ c, ¬ Writes es (descAt t j).tmr k c) (hj : j ∈ regList s)
    (ha : (descAt t j).state = .active) (hk : Drives t j k) (hdesc : descAt t j = descAt s j)
    (hshadow : t.shadow = s.shadow) : Serves es s t j k := by
  refine ⟨fun c hc => absurd hc (hes c), .inl ⟨hj, hdesc ▸ ha, hdesc ▸ rfl, ?_, ?_⟩⟩
  · rwa [Drives, ← hdesc]
  · cases k <;> simp [asked, shadowAt, hdesc, hshadow]

/-- A fan-out serves every slot that ran before it: its timer's by their compare writes, the others by none. -/
theorem serves_fanOut (h : s.Inv) (hd : ChannelsDistinct s) (hj : j ∈ regList s)
    (ha : (descAt s j).state = .active) (htmr : (descAt t j).tmr = (descAt s j).tmr)
    (hch : (descAt t j).ch = (descAt s j).ch) (hduty : (descAt t j).duty = (descAt s j).duty)
    (hshadow : shadowAt t (descAt s j).tmr = if v = (descAt s j).tmr then r else shadowAt s (descAt s j).tmr)
    (hk : Drives t j k) : Serves (fanOut s v r) s t j k := by
  rw [Drives, hch] at hk
  rw [Serves, htmr]
  by_cases hv : v = (descAt s j).tmr
  · rw [if_pos hv] at hshadow
    obtain rfl | rfl := hk
    · simp [writes_fanOut_reload, asked, htmr, hshadow, hv]
    · simp only [writes_fanOut_compare, asked, htmr, hduty, hshadow]
      refine ⟨?_, .inr ⟨j, (mem_siblings s v j).2 ⟨hj, hv.symm, ha⟩, hv, rfl, rfl⟩⟩
      rintro c ⟨d, hdsib, -, hdch, rfl⟩
      obtain ⟨hdreg, hdtmr, -⟩ := (mem_siblings s v d).1 hdsib
      have hdj : d = j :=
        eq_of_same_compare h hd hj (present_of_mem_regList h hdreg) (hdtmr.trans hv) hdch
      rw [hdj]
  · refine ⟨fun c hc => absurd hc (not_writes_fanOut_of_ne hv), .inl ⟨hj, ha, htmr.symm, hk, ?_⟩⟩
    rw [if_neg hv] at hshadow
    cases k <;> simp [asked, htmr, hduty, hshadow]

/-- START and SETDUTY write their own compare register, which no other registered slot drives. -/
theorem not_writes_other_compare (h : s.Inv) (hd : ChannelsDistinct s) (hj : j ∈ regList s) {d : DescIndex}
    (hp : present s d = true) (hne : d ≠ j) (hk : Drives s j k) (x c : Word) :
    writeOf? (.wrCompare (descAt s d).tmr (descAt s d).ch x) ≠ some ((descAt s j).tmr, k, c) := by
  simp only [writeOf?, ne_eq, Option.some.injEq, Prod.mk.injEq]
  rintro ⟨ht, rfl, -⟩
  obtain hk | hk := hk
  · cases hk
  · exact hne (eq_of_same_compare h hd hj hp ht (TimerRegister.compare.inj hk))

/-- SETPER and SETFREQ: the fan-out leaves every timer, channel and duty alone. -/
theorem serves_changePeriod (h : s.Inv) (hd : ChannelsDistinct s) {d : DescIndex} (hp : present s d = true) (x : Word)
    (hj : j ∈ regList (changePeriod d x s)) (ha : (descAt (changePeriod d x s) j).state = .active)
    (hk : Drives (changePeriod d x s) j k) :
    Serves (fanOut s (descAt s d).tmr (reloadValue x.toNat (descAt s d).cs.toNat)) s (changePeriod d x s) j k := by
  obtain ⟨ht, -⟩ := target_of_present h.2.1 hp
  rw [changePeriod_eq] at *
  have hread {α : Type} (g : Desc → α) (hg : ∀ d, g (withPeriod x d) = g d) :
      g (descAt (modDesc d (withPeriod x)
        (applyReload (descAt s d).tmr (reloadValue x.toNat (descAt s d).cs.toNat) s)) j) = g (descAt s j) := by
    rw [descAt_modDesc_field g hg]
    simp [descAt]
  rw [hread (·.state) fun _ => rfl] at ha
  refine serves_fanOut h hd (by simpa [regList] using hj) ha (hread (·.tmr) fun _ => rfl) (hread (·.ch) fun _ => rfl)
    (hread (·.duty) fun _ => rfl) ?_ hk
  simp [ht]

/-- A command registers no slot but the one it names. -/
theorem CommandEffect.mem_regList (he : CommandEffect s i t) (h : s.Inv) (hj : j ∈ regList t)
    (hne : ∀ d, descOf? i = some d → d ≠ j) : j ∈ regList s := by
  cases he with
  | @initUnregistered d x hp hr hc =>
    obtain ⟨-, -, ⟨-, hcap, -, -⟩, -⟩ := h
    rw [regList_appendReg (by exact lt_of_le_of_ne hcap hc), List.mem_append, List.mem_singleton] at hj
    exact hj.resolve_right fun hjd => hne d rfl hjd.symm
  | _ => simpa [regList, changePeriod_eq] using hj

theorem CommandEffect.descAt_of_ne (he : CommandEffect s i t) (hne : ∀ d, descOf? i = some d → d ≠ j) :
    descAt t j = descAt s j := by
  have hslot := he.desc_getElem? (j := j.toNat) fun d hd heq => hne d hd (BitVec.eq_of_toNat_eq heq)
  rw [descAt, List.getD_eq_getElem?_getD, hslot, ← List.getD_eq_getElem?_getD, descAt]

/-- A command that writes no register and leaves its own slot INACTIVE serves every slot. -/
theorem CommandEffect.serves_of_inactive (he : CommandEffect s i t) (h : s.Inv) {es : List Event}
    (hes : ∀ c, ¬ Writes es (descAt t j).tmr k c) (hoff : ∀ d, descOf? i = some d → (descAt t d).state = .inactive)
    (hshadow : t.shadow = s.shadow) (hj : j ∈ regList t) (ha : (descAt t j).state = .active) (hk : Drives t j k) :
    Serves es s t j k := by
  have hne : ∀ d, descOf? i = some d → d ≠ j := by
    rintro d hd rfl
    rw [hoff d hd] at ha
    cases ha
  exact serves_of_not_writes hes (he.mem_regList h hj hne) ha hk (he.descAt_of_ne hne) hshadow

theorem toNat_ofInt_of_permille {p : Int} (h : 0 ≤ p ∧ p ≤ 1000) : (BitVec.ofInt 10 p).toNat = p.toNat := by
  rw [BitVec.toNat_ofInt]
  omega

/-- The slot a command names reads as the command's write. -/
theorem CommandEffect.descAt_self (he : CommandEffect s i t) {d : DescIndex} (hi : descOf? i = some d)
    (hlt : d.toNat < s.nDesc) : descAt t d = slotWrite s i (descAt s d) := by
  rw [← descAt_modDesc_self hlt (slotWrite s i), descAt, he.desc_eq hi, descAt, modDesc_desc]

/-- SETDUTY writes the compare register of its own slot and no other. -/
theorem CommandEffect.serves_setduty {d : DescIndex} {f : Word} (he : CommandEffect s (.setduty d f) t) (h : s.Inv)
    (hd : ChannelsDistinct s) (hj : j ∈ regList t) (ha : (descAt t j).state = .active) (hk : Drives t j k) :
    Serves (eventsOnOk s (.setduty d f)) s t j k := by
  obtain ⟨p, hp, hf, hrange, hreg, hshadow⟩ : ∃ p, present s d = true ∧ dutyConv s.straps.dutyMul f = some p ∧
      (0 ≤ p ∧ p ≤ 1000) ∧ regList t = regList s ∧ t.shadow = s.shadow := by
    cases he with
    | setduty hp hf hrange => exact ⟨_, hp, hf, hrange, rfl, rfl⟩
  rw [hreg] at hj
  have hwrites (u : TimerIndex) (k : TimerRegister) (c : Word) :
      Writes (eventsOnOk s (.setduty d f)) u k c ↔ writeOf? (.wrCompare (descAt s d).tmr (descAt s d).ch
        (compareValue p.toNat (shadowAt s (descAt s d).tmr))) = some (u, k, c) := by
    rw [eventsOnOk, hf, writes_cons]
    exact or_iff_left (by simp [Writes, writeOf?])
  by_cases hdj : d = j
  · subst hdj
    have hdesc : descAt t d = withDuty (BitVec.ofInt 10 p) (descAt s d) := by
      rw [he.descAt_self rfl (lt_of_present hp), slotWrite, hf, Option.getD_some]
    rw [hdesc] at ha
    rw [Drives, hdesc] at hk
    simp only [Serves, hwrites, hdesc]
    obtain rfl | rfl := hk
    · refine ⟨fun c hc => ?_, .inl ⟨hj, ha, by rw [hdesc, withDuty], .inl rfl, ?_⟩⟩
      · simp [writeOf?] at hc
      · simp [asked, shadowAt, hdesc, hshadow, withDuty]
    · simp [writeOf?, asked, shadowAt, hdesc, hshadow, withDuty, toNat_ofInt_of_permille hrange]
  · have hdesc := he.descAt_of_ne (j := j) (by rintro _ ⟨⟩; exact hdj)
    refine serves_of_not_writes (fun c hc => ?_) hj ha hk hdesc hshadow
    rw [Drives, hdesc] at hk
    rw [hdesc, hwrites] at hc
    exact not_writes_other_compare h hd hj hp hdj hk _ _ hc

/-- START writes 0 to the compare register of its own slot, which is no sibling yet, before the fan-out. -/
theorem CommandEffect.serves_start {d : DescIndex} {x : Word} (he : CommandEffect s (.start d x) t) (h : s.Inv)
    (hd : ChannelsDistinct s) (hj : j ∈ regList t) (ha : (descAt t j).state = .active) (hk : Drives t j k) :
    Serves (eventsOnOk s (.start d x)) s t j k := by
  obtain ⟨hp, hs, hreg, hshadow⟩ : present s d = true ∧ (descAt s d).state = .inactive ∧ regList t = regList s ∧
      ∀ v, shadowAt t v =
        if (descAt s d).tmr = v then reloadValue 100 (descAt s d).cs.toNat else shadowAt s v := by
    cases he with
    | start hp hs =>
      obtain ⟨ht, -⟩ := target_of_present h.2.1 hp
      exact ⟨hp, hs, by simp [regList], fun v => by simp [State.nTimer, show _ < s.shadow.length from ht]⟩
  rw [hreg] at hj
  have hwrites (u : TimerIndex) (k : TimerRegister) (c : Word) : Writes (eventsOnOk s (.start d x)) u k c ↔
      writeOf? (.wrCompare (descAt s d).tmr (descAt s d).ch 0) = some (u, k, c) ∨
      Writes (fanOut s (descAt s d).tmr (reloadValue 100 (descAt s d).cs.toNat)) u k c := by
    rw [eventsOnOk, writes_cons, writes_append]
    exact or_congr_right (or_iff_left (by simp [Writes, writeOf?]))
  by_cases hdj : d = j
  · subst hdj
    have hdesc : descAt t d = activate (clearCache (descAt s d)) := he.descAt_self rfl (lt_of_present hp)
    rw [Drives, hdesc] at hk
    simp only [Serves, hwrites, hdesc]
    obtain rfl | rfl := hk
    · simp [writes_fanOut_reload, writeOf?, asked, hdesc, hshadow, activate, clearCache]
    · have hnone (c : Word) : ¬ Writes (fanOut s (descAt s d).tmr (reloadValue 100 (descAt s d).cs.toNat))
          (descAt s d).tmr (.compare (descAt s d).ch) c := by
        rw [writes_fanOut_compare]
        rintro ⟨e, hsib, -, hch, -⟩
        obtain ⟨hereg, htmr, hact⟩ := (mem_siblings s _ e).1 hsib
        obtain rfl := eq_of_same_compare h hd hj (present_of_mem_regList h hereg) htmr hch
        rw [hs] at hact
        cases hact
      simp [writeOf?, asked, hdesc, activate, clearCache, compareValue, hnone]
  · have hdesc := he.descAt_of_ne (j := j) (by rintro _ ⟨⟩; exact hdj)
    have hfan := serves_fanOut h hd hj (hdesc ▸ ha) (congrArg _ hdesc) (congrArg _ hdesc) (congrArg _ hdesc)
      (hshadow _) hk
    rw [Drives, hdesc] at hk
    have hown := not_writes_other_compare h hd hj hp hdj hk 0
    simp only [Serves, hwrites, hdesc, hown, false_or] at hfan ⊢
    exact hfan

/-- The events of every command serve every slot that runs after it. -/
theorem CommandEffect.serves (he : CommandEffect s i t) (h : s.Inv) (hd : ChannelsDistinct s) (hj : j ∈ regList t)
    (ha : (descAt t j).state = .active) (hk : Drives t j k) : Serves (eventsOnOk s i) s t j k := by
  have heff := he
  cases he with
  | config hlt ht hch hs =>
    refine heff.serves_of_inactive h (fun _ => not_writes_nil) ?_ rfl hj ha hk
    rintro _ ⟨⟩
    rwa [descAt_modDesc_self hlt]
  | initRegistered hp | deinit hp | stop hp =>
    refine heff.serves_of_inactive h (by simp [Writes, eventsOnOk, writeOf?]) ?_ rfl hj ha hk
    rintro _ ⟨⟩
    rw [descAt_modDesc_self (by exact lt_of_present hp)]
    rfl
  | initUnregistered hp =>
    refine heff.serves_of_inactive h (by simp [Writes, eventsOnOk, writeOf?]) ?_ rfl hj ha hk
    rintro _ ⟨⟩
    rw [descAt_appendReg, descAt_modDesc_self (by exact lt_of_present hp)]
    rfl
  | rddesc | rdeng => exact serves_of_not_writes (fun _ => not_writes_nil) hj ha hk rfl rfl
  | setper hp => exact serves_changePeriod h hd hp _ hj ha hk
  | setfreq hp hq =>
    rw [eventsOnOk, hq]
    exact serves_changePeriod h hd hp _ hj ha hk
  | setduty => exact heff.serves_setduty h hd hj ha hk
  | start => exact heff.serves_start h hd hj ha hk

end Sys2Proof.Machine
end

/-! ### Timers and engine stay consistent -/

section
namespace Sys2Proof.Machine

open Sys2Proof Sys2Proof.Claims

/-- Only INIT and DEINIT emit hook events. -/
theorem callsHook_of_mem_eventsOnOk {s : State} {i : Instr} {e : Event} (h : e ∈ eventsOnOk s i)
    (he : callsHookEvent e = true) : callsHook i = true := by
  have hfan {t : TimerIndex} {r : Word} : e ∉ fanOut s t r := fun hmem => by
    obtain rfl | rfl | ⟨j, -, rfl⟩ | rfl | rfl := mem_fanOut.1 hmem <;> cases he
  cases i with
  | init | deinit => rfl
  | start =>
    simp only [eventsOnOk, List.mem_cons, List.mem_append, hfan, false_or, List.not_mem_nil, or_false] at h
    obtain rfl | rfl := h <;> cases he
  | setper | setfreq => exact absurd h hfan
  | config | rddesc | rdeng => cases h
  | stop =>
    obtain rfl := List.mem_singleton.1 h
    cases he
  | setduty =>
    simp only [eventsOnOk, List.mem_cons, List.not_mem_nil, or_false] at h
    obtain rfl | rfl := h <;> cases he

section
variable {hook : HookEffect} {i : Instr} {s t : State} {P : Platform}

/-- The events of a command lead from timers consistent with the engine before it to timers consistent with the engine
after it. -/
theorem CommandEffect.consistent (he : CommandEffect s i t) (h : s.Inv) (hd : ChannelsDistinct s)
    (hlen : P.timers.length = s.nTimer) (hk : HooksKeepRegisters hook i) (hc : Consistent s P.timers) :
    Consistent t (performAll hook s.straps.timerWidth (eventsOnOk s i) P).timers := by
  intro j hj ha
  rw [slotConsistent_iff, he.straps_eq]
  intro k hdrives
  have hinv := he.inv h
  obtain ⟨x, hx⟩ := registerAt_of_drives hinv.2.1 (present_of_mem_regList hinv hj)
    (hlen.trans he.length_shadow.symm) hdrives
  obtain ⟨honly, hserved⟩ := he.serves h hd hj ha hdrives
  refine registerAt_performAll (fun e hmem hhook n R => hk (callsHook_of_mem_eventsOnOk hmem hhook) n e R)
    (fun e hmem c hw => honly c ⟨e, hmem, hw⟩) hx (hserved.imp_left fun hbefore => ?_)
  have hheld := (slotConsistent_iff s P.timers j).1 (hc j hbefore.registered hbefore.active) k hbefore.drives
  rw [hbefore.tmr_eq, hx, hbefore.asked_eq] at hheld
  exact Option.some.inj hheld

/-- START's own compare write reaches no running slot. -/
theorem CommandEffect.consistent_start_compare {d : DescIndex} {x : Word} (he : CommandEffect s (.start d x) t)
    (h : s.Inv) (hd : ChannelsDistinct s) (hc : Consistent s P.timers) (w : Nat) :
    Consistent s (perform hook w (.wrCompare (descAt s d).tmr (descAt s d).ch 0) P).timers := by
  obtain ⟨hp, hs⟩ : present s d = true ∧ (descAt s d).state = .inactive := by
    cases he with
    | start hp hs => exact ⟨hp, hs⟩
  intro j hj ha
  have hne : d ≠ j := by
    rintro rfl
    rw [hs] at ha
    cases ha
  rw [slotConsistent_iff, perform_timers]
  intro k hk
  rw [registerAt_of_no_write (fun hhook => Bool.noConfusion hhook) (not_writes_other_compare h hd hj hp hne hk 0)]
  exact (slotConsistent_iff s P.timers j).1 (hc j hj ha) k hk

theorem CommandEffect.view_consistent (he : CommandEffect s i t) (h : s.Inv) (hd : ChannelsDistinct s)
    (hlen : P.timers.length = s.nTimer) (hk : HooksKeepRegisters hook i) (hc : Consistent s P.timers)
    {V : List TimerRegs} (hV : V ∈ observerViews hook s.straps.timerWidth (eventsOnOk s i) P) :
    Consistent s V ∨ Consistent t V := by
  obtain rfl | ⟨d, x, rfl, rfl⟩ | hV := view_of_eventsOnOk hV
  · exact .inl hc
  · exact .inl (he.consistent_start_compare h hd hc _)
  · exact .inr (consistent_congr hV (he.consistent h hd hlen hk hc))
end

end Sys2Proof.Machine

namespace Sys2Proof.Claims

open Sys2Proof.Machine

/-- Settles O51: a view shows the timers before the command, these with START's own compare written, or the registers
after it. -/
theorem observerSeesConsistentTimers : Obligations.ObserverSeesConsistentTimers := by
  intro hook i s t P h hd hlen hk _ hc hx V hV
  obtain ⟨c, -, -, hev⟩ | ⟨u, he, rfl, hev⟩ := exec_newEvents hx <;> rw [hev] at hV
  · obtain rfl := eq_timers_of_mem_visible hV
    exact .inl hc
  · exact he.view_consistent h hd hlen hk hc hV

end Sys2Proof.Claims
end

/-! ### What one event does at the timers -/

section
namespace Sys2Proof.Machine

open Sys2Proof Sys2Proof.Claims

/-- A change of a timer that is there is a write of the changed timer. -/
theorem modify_eq_set {T : List TimerRegs} {n : Nat} {R : TimerRegs} (h : T[n]? = some R)
    (f : TimerRegs → TimerRegs) : T.modify n f = T.set n (f R) := by
  obtain ⟨hn, rfl⟩ := List.getElem?_eq_some_iff.1 h
  exact List.modify_eq_set_get f hn

theorem eq_truncTimer {w : Nat} {x r : Word} (h : x.toNat = r.toNat % 2 ^ w) : truncTimer w r = x :=
  BitVec.eq_of_toNat_eq ((toNat_truncTimer w r).trans h.symm)

/-- A write inside a row of five reads back, and leaves the other positions. -/
theorem getElem?_setIfInBounds_channel {α : Type} (v : Vector α 5) {ch : Channel} (hlo : 1 ≤ ch.toNat)
    (hhi : ch.toNat ≤ 5) (x : α) : (v.setIfInBounds (ch.toNat - 1) x)[ch.toNat - 1]? = some x ∧
      ∀ k, k ≠ ch.toNat - 1 → (v.setIfInBounds (ch.toNat - 1) x)[k]? = v[k]? :=
  ⟨Vector.getElem?_setIfInBounds_self_of_lt (by omega), fun _ hk => Vector.getElem?_setIfInBounds_ne hk.symm⟩

end Sys2Proof.Machine

namespace Sys2Proof.Claims

open Sys2Proof.Machine

/-- Settles O49: each event changes one timer, by the change its kind names. -/
theorem eventsWriteTheirRegister : Obligations.EventsWriteTheirRegister := by
  intro hook width P t R hR
  refine ⟨fun r x hx => ?_, fun ch c x hlo hhi hx => ?_, fun ch hlo hhi g e he => ?_, fun ch e he => ?_, fun e he => ?_⟩
  · rw [perform_timers, performAtTimers, modify_eq_set hR, eq_truncTimer hx]
  · refine ⟨_, ?_, getElem?_setIfInBounds_channel R.cmp hlo hhi x⟩
    rw [perform_timers, performAtTimers, modify_eq_set hR, eq_truncTimer hx, writeCmp, if_neg (channel_ne_zero hlo)]
  · refine ⟨_, ?_, getElem?_setIfInBounds_channel R.generating hlo hhi g⟩
    obtain ⟨rfl, rfl⟩ | ⟨rfl, rfl⟩ := he <;>
      rw [perform_timers, performAtTimers, modify_eq_set hR, writeGenerating, if_neg (channel_ne_zero hlo)]
  · obtain rfl | rfl := he
    · exact modify_eq_set hR _
    · exact modify_eq_set hR _
  · simp only [List.mem_cons, List.not_mem_nil, or_false] at he
    obtain rfl | rfl | rfl := he <;> rfl

end Sys2Proof.Claims
end

/-! ### The register window -/

section
namespace Sys2Proof.Machine

open Sys2Proof Sys2Proof.Claims

/-- The lanes of a read hold the value read. -/
theorem lanesHold_lanesOfWord (v : Word) : LanesHold (lanesOfWord v) v := by
  refine ⟨_, _, _, _, rfl, ?_⟩
  have hlanes := toNat_wordOfLanes (BitVec.ofNat 8 v.toNat) (BitVec.ofNat 8 (v.toNat / 256))
    (BitVec.ofNat 8 (v.toNat / 256 / 256)) (BitVec.ofNat 8 (v.toNat / 256 / 256 / 256))
  rw [← hlanes]
  exact congrArg BitVec.toNat (wordOfLanes_lanesOfWord v).symm

/-- STATUS as a number: REG.count from bit 8, LAST_OP at bits 7:4, CODE at bits 3:0 (20_memory.md R50). -/
theorem toNat_statusWord (s : State) :
    (statusWord s).toNat = s.regCount.toNat * 2 ^ 8 + s.lastOp.toNat * 2 ^ 4 + (codeBits s.code).toNat := by
  simp only [statusWord, BitVec.toNat_append, show (0 : BitVec 19).toNat = 0 from rfl, Nat.zero_shiftLeft, Nat.zero_or]
  rw [← Nat.shiftLeft_add_eq_or_of_lt s.lastOp.isLt, ← Nat.shiftLeft_add_eq_or_of_lt (codeBits s.code).isLt,
    Nat.shiftLeft_eq, Nat.shiftLeft_eq]
  omega

/-- A command word is its two halves. -/
theorem commandWord_halves (w : CmdWord) : commandWord (w.extractLsb' 32 32) (w.extractLsb' 0 32) = w := by
  refine BitVec.eq_of_getLsbD_eq fun k hk => ?_
  rw [commandWord, BitVec.getLsbD_append, BitVec.getLsbD_extractLsb', BitVec.getLsbD_extractLsb']
  split
  · next hlow => simp [hlow]
  · next hlow =>
    have hhigh : k - 32 < 32 := by omega
    simp [hhigh, Nat.add_sub_cancel' (not_lt.1 hlow)]

theorem windowReg_eq_none {base addr n : Nat}
    (h : n ≠ 4 ∨ ¬ (addr = base ∨ addr = base + 0x4 ∨ addr = base + 0x8 ∨ addr = base + 0xC)) :
    windowReg base addr n = none := by
  cases hr : windowReg base addr n with
  | none => rfl
  | some r =>
    obtain ⟨hn, haddr⟩ := windowReg_eq_some hr
    refine absurd ?_ (h.resolve_left (not_not.2 hn))
    cases r with
    | operand => exact .inl haddr
    | command => exact .inr (.inl haddr)
    | status => exact .inr (.inr (.inl haddr))
    | rdata => exact .inr (.inr (.inr haddr))

end Sys2Proof.Machine

namespace Sys2Proof.Claims

open Sys2Proof.Machine

/-- A write of four lanes at the window's base stores them in OPERAND. -/
theorem memWrite_operand {lanes : List Byte} {v : Word} (hl : LanesHold lanes v) (s : State) :
    memWrite s.straps.engineBase lanes s = .next { s with operand := v, response := some .writeDone } := by
  have hw := memWrite_offset (s := s) (length_of_lanesHold hl) .operand
  rwa [wordOfLanes_of_lanesHold hl] at hw

/-- Settles O6: the window's base is OPERAND's address, and the four offsets are the registers'. -/
theorem windowReadsAndWrites : Obligations.WindowReadsAndWrites := by
  refine ⟨fun s lanes v hl => ?_, fun s off v h => ?_⟩
  · have hlen := length_of_lanesHold hl
    exact ⟨memWrite_operand hl s, memWrite_offset hlen .status, memWrite_offset hlen .rdata⟩
  · obtain ⟨r, rfl, hr⟩ : ∃ r, off = windowOffset r ∧ v = readReg s r := by
      obtain ⟨rfl, hv⟩ | ⟨rfl, hv⟩ | ⟨rfl, hv⟩ | ⟨rfl, hv⟩ := h
      · exact ⟨.operand, rfl, hv⟩
      · exact ⟨.command, rfl, hv⟩
      · exact ⟨.status, rfl, BitVec.eq_of_toNat_eq (hv.trans (toNat_statusWord s).symm)⟩
      · exact ⟨.rdata, rfl, hv⟩
    subst hr
    exact ⟨_, lanesHold_lanesOfWord _, memRead_offset s r⟩

/-- Settles O7: such an access touches the window and addresses none of its registers. -/
theorem otherAccessesAreBusErrors : Obligations.OtherAccessesAreBusErrors := by
  rintro s addr n lanes rfl hlo hhi hother
  have htouch : touchesWindow s.straps.engineBase addr lanes.length = true := decide_eq_true ⟨hlo, hhi⟩
  have hreg := windowReg_eq_none hother
  constructor
  · simp [memWrite, htouch, hreg, respond]
  · simp [memRead, htouch, hreg, respond]

/-- Settles O8: the first write stores OPERAND, the second one executes the word of both. -/
theorem issuedCommandRuns : Obligations.IssuedCommandRuns := by
  refine ⟨fun s w low high rest i hin hlow hhigh hdec => ?_, fun base w =>
    ⟨_, _, rfl, lanesHold_lanesOfWord _, lanesHold_lanesOfWord _⟩⟩
  have hfirst : step s = .next { s with
      operand := w.extractLsb' 0 32
      inputs := .write (s.straps.engineBase + 4) high :: rest
      response := some .writeDone } := by
    rw [step_input hin]
    exact memWrite_operand hlow { s with inputs := _ }
  refine ⟨_, _, hfirst, exec_eq_finish i _, ?_⟩
  rw [step_command_write rfl hhigh, commandWord_halves, execute, hdec]
  exact congrArg (respondAfter .writeDone) (exec_eq_finish i _)

end Sys2Proof.Claims
end

/-! PROOFS of the family 30_encoding.md: the decoder and the encoder, the opcode table, and the assembler. -/

/-! ### Decoder and encoder -/

section
namespace Sys2Proof

@[simp] theorem op_fieldsOfInstr (i : Instr) : (fieldsOfInstr i).op = opOf i := by cases i <;> rfl

theorem decodeFields_fieldsOfInstr (i : Instr) : decodeFields (fieldsOfInstr i) = .ok i := by
  cases i <;> simp [decodeFields, fieldsOfInstr, commandOfFields]

theorem wellFormed_fieldsOfInstr (i : Instr) : (fieldsOfInstr i).WellFormed := by
  rw [← fieldsOf_encode]
  cases i
  exacts [Laws.LegalWord.config .., Laws.LegalWord.init .., Laws.LegalWord.deinit .., Laws.LegalWord.start ..,
    Laws.LegalWord.stop .., Laws.LegalWord.setper .., Laws.LegalWord.setduty .., Laws.LegalWord.setfreq ..,
    Laws.LegalWord.rddesc .., Laws.LegalWord.rdeng ..]

/-- The OP values of the opcode map (30_encoding.md R72, R73). -/
theorem op_cases {op : BitVec 4} (h : 0x1 ≤ op.toNat ∧ op.toNat ≤ 0xA) :
    op = 0x1 ∨ op = 0x2 ∨ op = 0x3 ∨ op = 0x4 ∨ op = 0x5 ∨ op = 0x6 ∨ op = 0x7 ∨ op = 0x8 ∨ op = 0x9 ∨ op = 0xA := by
  revert op
  decide

/-- Legal fields leave no choice beside the operands of the command that OP names. -/
theorem exists_fieldsOfInstr_eq {f : Cmd64} (h : f.WellFormed) : ∃ i, fieldsOfInstr i = f := by
  obtain ⟨op, rsv1, i, t, rsv2, c, v⟩ := f
  obtain ⟨hop, ⟨rfl, rfl⟩, htmr, hdesc⟩ := (wellFormed_iff _).1 h
  by_cases h1 : op = 0x1
  · exact ⟨.config i t c v, by rw [fieldsOfInstr, ← h1]⟩
  obtain ⟨rfl, rfl⟩ := htmr h1
  obtain rfl | rfl | rfl | rfl | rfl | rfl | rfl | rfl | rfl | rfl := op_cases hop
  · exact absurd rfl h1
  · exact ⟨.init i v, rfl⟩
  · exact ⟨.deinit i v, rfl⟩
  · exact ⟨.start i v, rfl⟩
  · exact ⟨.stop i v, rfl⟩
  · exact ⟨.setper i v, rfl⟩
  · exact ⟨.setduty i v, rfl⟩
  · exact ⟨.setfreq i v, rfl⟩
  · exact ⟨.rddesc i v, rfl⟩
  · obtain rfl := hdesc rfl
    exact ⟨.rdeng v, rfl⟩

/-- The decoder's tests refuse every word that R73 or R74 refuses (30_encoding.md R75). -/
theorem wellFormed_of_decodeFields {f : Cmd64} {i : Instr} (h : decodeFields f = .ok i) : f.WellFormed := by
  unfold decodeFields at h
  split at h
  · cases h
  next hrsv =>
  split at h
  · cases h
  next hop =>
  split at h
  · cases h
  next hstray =>
  split at h
  · cases h
  next hdesc =>
  push Not at hrsv hop hstray hdesc
  have hpos : f.op.toNat ≠ 0 := fun h0 => hop.1 (BitVec.eq_of_toNat_eq h0)
  exact (wellFormed_iff f).2 ⟨by omega, hrsv, hstray, hdesc⟩

theorem wellFormed_iff_exists {f : Cmd64} : f.WellFormed ↔ ∃ i, fieldsOfInstr i = f :=
  ⟨exists_fieldsOfInstr_eq, fun ⟨i, hi⟩ => hi ▸ wellFormed_fieldsOfInstr i⟩

theorem decodeFields_eq_ok_iff {f : Cmd64} {i : Instr} : decodeFields f = .ok i ↔ fieldsOfInstr i = f := by
  constructor
  · intro h
    obtain ⟨j, rfl⟩ := exists_fieldsOfInstr_eq (wellFormed_of_decodeFields h)
    rw [decodeFields_fieldsOfInstr] at h
    injection h with h
    rw [h]
  · rintro rfl
    exact decodeFields_fieldsOfInstr i

theorem decode_eq_ok_iff {w : CmdWord} {i : Instr} : decode w = .ok i ↔ encode i = w := by
  rw [decode, decodeFields_eq_ok_iff]
  constructor
  · intro h
    rw [encode, h, packFields_fieldsOf]
  · rintro rfl
    exact (fieldsOf_encode i).symm

theorem exists_decode_iff {w : CmdWord} : (∃ i, decode w = .ok i) ↔ (fieldsOf w).WellFormed := by
  simp only [decode, decodeFields_eq_ok_iff, wellFormed_iff_exists]

/-- A command keeps its word's OP. -/
theorem opOf_of_decode {w : CmdWord} {i : Instr} (h : decode w = .ok i) : opOf i = (fieldsOf w).op := by
  rw [← op_fieldsOfInstr, decodeFields_eq_ok_iff.1 h]

end Sys2Proof
end

/-! ### The opcode table -/

section
namespace Sys2Proof

theorem fieldsOf_and (w m : CmdWord) : fieldsOf (w &&& m) =
    { op := (fieldsOf w).op &&& (fieldsOf m).op
      rsv1 := (fieldsOf w).rsv1 &&& (fieldsOf m).rsv1
      desc := (fieldsOf w).desc &&& (fieldsOf m).desc
      tmr := (fieldsOf w).tmr &&& (fieldsOf m).tmr
      rsv2 := (fieldsOf w).rsv2 &&& (fieldsOf m).rsv2
      ch := (fieldsOf w).ch &&& (fieldsOf m).ch
      operand := (fieldsOf w).operand &&& (fieldsOf m).operand } := by
  simp only [fieldsOf, BitVec.extractLsb'_and]

theorem fieldsOf_inj {w w' : CmdWord} : fieldsOf w = fieldsOf w' ↔ w = w' :=
  ⟨fun h => by rw [← packFields_fieldsOf w, h, packFields_fieldsOf], congrArg fieldsOf⟩

/-- The fields that a command with OP value `op` fixes (30_encoding.md R74): all but the operands it has. -/
def maskFields (op : BitVec 4) : Cmd64 :=
  { op := BitVec.allOnes 4
    rsv1 := BitVec.allOnes 4
    desc := if op = 0xA then BitVec.allOnes 8 else 0
    tmr := if op ≠ 0x1 then BitVec.allOnes 8 else 0
    rsv2 := BitVec.allOnes 5
    ch := if op ≠ 0x1 then BitVec.allOnes 3 else 0
    operand := 0 }

/-- The fixed fields' values: OP, and 0 in the others. -/
def matchFields (op : BitVec 4) : Cmd64 := { op := op, rsv1 := 0, desc := 0, tmr := 0, rsv2 := 0, ch := 0, operand := 0 }

/-- The row of the opcode table that R73 and R74 ask for. -/
def tableRow (op : BitVec 4) : CmdWord × CmdWord := (packFields (matchFields op), packFields (maskFields op))

theorem opcodeTable_eq : opcodeTable =
    [tableRow 0x1, tableRow 0x2, tableRow 0x3, tableRow 0x4, tableRow 0x5, tableRow 0x6, tableRow 0x7, tableRow 0x8,
      tableRow 0x9, tableRow 0xA] := by
  decide

theorem rowOf_eq (i : Instr) : rowOf i = some (tableRow (opOf i)) := by
  rw [rowOf, opcodeTable_eq]
  cases i <;> rfl

theorem exists_of_mem_opcodeTable {r : CmdWord × CmdWord} (h : r ∈ opcodeTable) :
    ∃ op : BitVec 4, (0x1 ≤ op.toNat ∧ op.toNat ≤ 0xA) ∧ r = tableRow op := by
  rw [opcodeTable_eq] at h
  simp only [List.mem_cons, List.not_mem_nil, or_false] at h
  obtain rfl | rfl | rfl | rfl | rfl | rfl | rfl | rfl | rfl | rfl := h <;> exact ⟨_, by decide, rfl⟩

/-- A field that is masked under a condition is asked to be 0 under that condition. -/
theorem and_mask_eq_zero_iff {n : Nat} {x : BitVec n} {p : Prop} [Decidable p] :
    x &&& (if p then BitVec.allOnes n else 0) = 0 ↔ (p → x = 0) := by
  split
  next hp => rw [BitVec.and_allOnes, forall_prop_of_true hp]
  next hp => exact iff_of_true BitVec.and_zero (absurd · hp)

/-- Mask and match of a row hold of the legal words with the row's OP value and of no others. -/
theorem meets_tableRow_iff {w : CmdWord} {op : BitVec 4} (hop : 0x1 ≤ op.toNat ∧ op.toNat ≤ 0xA) :
    w &&& (tableRow op).2 = (tableRow op).1 ↔ (fieldsOf w).op = op ∧ (fieldsOf w).WellFormed := by
  rw [← fieldsOf_inj, fieldsOf_and, tableRow, fieldsOf_packFields, fieldsOf_packFields, wellFormed_iff]
  simp only [maskFields, matchFields, Cmd64.mk.injEq, BitVec.and_allOnes, and_mask_eq_zero_iff]
  constructor
  · rintro ⟨rfl, hrsv1, hdesc, htmr, hrsv2, hch, -⟩
    exact ⟨rfl, hop, ⟨hrsv1, hrsv2⟩, fun h1 => ⟨htmr h1, hch h1⟩, hdesc⟩
  · rintro ⟨rfl, -, ⟨hrsv1, hrsv2⟩, hstray, hdesc⟩
    exact ⟨rfl, hrsv1, hdesc, fun h1 => (hstray h1).1, hrsv2, fun h1 => (hstray h1).2, BitVec.and_zero⟩
end Sys2Proof
end

/-! ### Illegal words -/

section
namespace Sys2Proof.Machine

open Sys2Proof.Claims

theorem execute_of_not_wellFormed {w : CmdWord} (h : ¬ (fieldsOf w).WellFormed) (s : State) :
    execute w s = .next (statusOnly s .illegalCommand (w.extractLsb' 60 4)) := by
  obtain ⟨i, hi, -⟩ | ⟨e, -, he⟩ := execute_cases w s
  · exact absurd (exists_decode_iff.1 ⟨i, hi⟩) h
  · exact he

/-- OP is the high nibble of COMMAND (30_encoding.md R67). -/
theorem extractLsb'_op_commandWord (h v : Word) : (commandWord h v).extractLsb' 60 4 = h.extractLsb' 28 4 := by
  refine BitVec.eq_of_getLsbD_eq fun k hk => ?_
  have hhigh : ¬ 60 + k < 32 := by omega
  rw [BitVec.getLsbD_extractLsb', BitVec.getLsbD_extractLsb', commandWord, BitVec.getLsbD_append, if_neg hhigh]
  congr 2
  omega

end Sys2Proof.Machine

namespace Sys2Proof.Claims

open Sys2Proof.Machine

/-- Settles O1: the fields of a command decode to it, and legal fields are the fields of one command. -/
theorem decodeAndEncodeAgree : Obligations.DecodeAndEncodeAgree :=
  ⟨fun _ => decode_eq_ok_iff.2 rfl, fun _ _ => decode_eq_ok_iff.1⟩

/-- Settles O2: the opcode table's row of an OP value masks exactly the fields that R73 and R74 fix for it. -/
theorem everyWordIsCommandOrIllegal : Obligations.EveryWordIsCommandOrIllegal := by
  refine ⟨fun w => exists_decode_iff, fun w s h => execute_of_not_wellFormed h s, fun w i h => ?_, fun r hr w hw => ?_⟩
  · have hwf : (fieldsOf w).WellFormed := exists_decode_iff.1 ⟨i, h⟩
    have hop := opOf_of_decode h
    exact ⟨_, rowOf_eq i, (meets_tableRow_iff (hop ▸ hwf.1)).2 ⟨hop.symm, hwf⟩⟩
  · obtain ⟨op, hop, rfl⟩ := exists_of_mem_opcodeTable hr
    obtain ⟨rfl, hwf⟩ := (meets_tableRow_iff hop).1 hw
    obtain ⟨i, hi⟩ := exists_decode_iff.2 hwf
    exact ⟨i, hi, by rw [rowOf_eq, opOf_of_decode hi]⟩

/-- Settles O3. -/
theorem writtenWordsDecode : Obligations.WrittenWordsDecode :=
  ⟨by decide, by decide, by decide, by decide⟩

/-- Settles O5: the write of COMMAND executes an illegal word, whose OP is COMMAND's high nibble. -/
theorem stepOfIllegalCommand : Obligations.StepOfIllegalCommand := by
  intro s lanes h rest hin hl hill
  rw [step_command_write hin hl, execute_of_not_wellFormed hill, extractLsb'_op_commandWord]
  rfl

end Sys2Proof.Claims
end

/-! ### The assembler's lines -/

section
namespace Sys2Proof.Claims

open Sys2Proof.Machine

theorem assembleLine_of_wellFormed {l : AsmLine} (h : l.wellFormed = true) : assembleLine l = some (expandLine l) :=
  if_pos h

theorem assembleLine_of_not_wellFormed {l : AsmLine} (h : ¬ l.wellFormed = true) : assembleLine l = none :=
  if_neg h

/-- A line that is accepted where its operands fit, and whose expansion then has the shape `is`. -/
theorem assembles_of_expandLine {l : AsmLine} {fits : Prop} {is : Instr → Prop} (hwf : l.wellFormed = true ↔ fits)
    (his : fits → is (expandLine l)) : Assembles l fits is :=
  ⟨fun h => ⟨_, assembleLine_of_wellFormed (hwf.2 h), his h⟩,
    fun h => assembleLine_of_not_wellFormed fun hl => h (hwf.1 hl)⟩

theorem assembleLine_eq {l : AsmLine} {x : Instr} (hl : l.wellFormed = true) (hx : expandLine l = x) :
    assembleLine l = some x :=
  hx ▸ assembleLine_of_wellFormed hl

theorem wellFormed_setduty {i : ℕ} {d : DutyLiteral} :
    (AsmLine.setduty i d).wellFormed = true ↔ i < 256 ∧ d.wellFormed = true := by
  simp [AsmLine.wellFormed]

theorem wellFormed_rdslot {k : ℕ} : (AsmLine.rdslot k).wellFormed = true ↔ k < 16 :=
  decide_eq_true_iff.trans Nat.lt_succ_iff.symm

theorem wellFormed_rdshadow {t : ℕ} : (AsmLine.rdshadow t).wellFormed = true ↔ t < 256 :=
  decide_eq_true_iff.trans Nat.lt_succ_iff.symm

theorem wellFormed_rdeng {v : ℕ} : (AsmLine.rdeng v).wellFormed = true ↔ v < 2 ^ 32 := decide_eq_true_iff

theorem wellFormed_off {i : ℕ} : (AsmLine.off i).wellFormed = true ↔ i < 256 := decide_eq_true_iff

theorem wellFormed_fullon {i : ℕ} : (AsmLine.fullon i).wellFormed = true ↔ i < 256 := decide_eq_true_iff

/-- A number that fits its field is the field's value. -/
theorem toNat_ofNat_of_lt {n m : ℕ} (h : m < 2 ^ n) : (BitVec.ofNat n m).toNat = m :=
  (BitVec.toNat_ofNat m n).trans (Nat.mod_eq_of_lt h)

theorem ofNat_of_toNat_eq {n m : ℕ} {x : BitVec n} (h : x.toNat = m) : BitVec.ofNat n m = x := by
  rw [← h, BitVec.ofNat_toNat, BitVec.setWidth_eq]

/-- Settles O54: each line is accepted when its numbers fit, and a number that fits is its field's value. -/
theorem assemblerNeverTruncates : Obligations.AssemblerNeverTruncates := by
  refine ⟨fun i t c v => ?config, fun i => ⟨?init, ?deinit, ?start, ?stop⟩,
    fun i v => ⟨?setper, ?setfreq, ?rddesc, ?raw⟩, fun i _ _ _ => ?decimal, fun v => ?rdeng,
    fun i => ⟨?off, ?fullon⟩, ?rdcount, fun k => ?rdslot, fun t => ?rdshadow⟩
  case config =>
    exact assembles_of_expandLine decide_eq_true_iff fun ⟨hi, ht, hc, hv⟩ => ⟨_, _, _, _, rfl,
      toNat_ofNat_of_lt hi, toNat_ofNat_of_lt ht, toNat_ofNat_of_lt hc, toNat_ofNat_of_lt hv⟩
  case init | deinit | start | stop =>
    exact assembles_of_expandLine decide_eq_true_iff fun hi => ⟨_, rfl, toNat_ofNat_of_lt hi⟩
  case setper | setfreq | rddesc =>
    exact assembles_of_expandLine decide_eq_true_iff fun ⟨hi, hv⟩ =>
      ⟨_, _, rfl, toNat_ofNat_of_lt hi, toNat_ofNat_of_lt hv⟩
  case raw =>
    exact assembles_of_expandLine (wellFormed_setduty.trans (and_congr_right' decide_eq_true_iff)) fun ⟨hi, hv⟩ =>
      ⟨_, _, rfl, toNat_ofNat_of_lt hi, toNat_ofNat_of_lt hv⟩
  case decimal =>
    exact assembles_of_expandLine (wellFormed_setduty.trans (and_iff_left rfl)) fun hi =>
      ⟨_, rfl, toNat_ofNat_of_lt hi⟩
  case rdeng =>
    exact assembles_of_expandLine decide_eq_true_iff fun hv => ⟨_, rfl, toNat_ofNat_of_lt hv⟩
  case off | fullon =>
    exact assembles_of_expandLine decide_eq_true_iff fun hi => ⟨_, _, rfl, toNat_ofNat_of_lt hi, rfl⟩
  case rdcount =>
    exact assembles_of_expandLine (iff_of_true rfl trivial) fun _ => ⟨_, rfl, rfl⟩
  case rdslot =>
    exact assembles_of_expandLine wellFormed_rdslot fun hk => ⟨_, rfl, toNat_ofNat_of_lt (by omega)⟩
  case rdshadow =>
    exact assembles_of_expandLine wellFormed_rdshadow fun ht => ⟨_, rfl, toNat_ofNat_of_lt (by omega)⟩

/-- The literal `0.0`. -/
theorem dutyPattern_zero : dutyPattern (.decimal false 0 1) = 0x00000000 := by decide

/-- The literal `100.0`. -/
theorem dutyPattern_hundred : dutyPattern (.decimal false 1000 1) = 0x42C80000 := by decide

/-- Settles O56: each pseudo-command and its expansion have the same command where they are accepted. -/
theorem pseudoCommandsExpand : Obligations.PseudoCommandsExpand := by
  refine ⟨fun i d hd => ?_, fun i hi => ?_, rfl, fun k w hk hw => ?_, fun k hk => ?_, fun t w ht hw => ?_, fun t ht => ?_⟩
  · have hi : i < 256 := hd ▸ d.isLt
    have hsetduty {x : DutyLiteral} {v : Word} (hx : dutyPattern x = v) : expandLine (.setduty i x) = .setduty d v := by
      rw [expandLine, ofNat_of_toNat_eq hd, hx]
    exact ⟨assembleLine_eq (wellFormed_off.2 hi) (by rw [expandLine, ofNat_of_toNat_eq hd]),
      assembleLine_eq (wellFormed_setduty.2 ⟨hi, rfl⟩) (hsetduty dutyPattern_zero),
      assembleLine_eq (wellFormed_fullon.2 hi) (by rw [expandLine, ofNat_of_toNat_eq hd]),
      assembleLine_eq (wellFormed_setduty.2 ⟨hi, rfl⟩) (hsetduty dutyPattern_hundred)⟩
  · exact ⟨assembleLine_of_not_wellFormed (wellFormed_off.not.2 hi.not_gt),
      assembleLine_of_not_wellFormed (wellFormed_fullon.not.2 hi.not_gt)⟩
  · exact ⟨assembleLine_eq (wellFormed_rdslot.2 (by omega)) (by rw [expandLine, ofNat_of_toNat_eq hw]),
      assembleLine_eq (wellFormed_rdeng.2 (by omega)) (by rw [expandLine, ofNat_of_toNat_eq hw])⟩
  · exact assembleLine_of_not_wellFormed (wellFormed_rdslot.not.2 (by omega))
  · exact ⟨assembleLine_eq (wellFormed_rdshadow.2 (by omega)) (by rw [expandLine, ofNat_of_toNat_eq hw]),
      assembleLine_eq (wellFormed_rdeng.2 (by omega)) (by rw [expandLine, ofNat_of_toNat_eq hw])⟩
  · exact assembleLine_of_not_wellFormed (wellFormed_rdshadow.not.2 (by omega))

end Sys2Proof.Claims
end

/-! ### Rounding to binary32 -/

section
namespace Sys2Proof.Machine

open Sys2Proof.Claims

/-- The whole number of units nearest to `num / unit`, the even one on a tie. -/
def nearestEven (num unit : ℕ) : ℕ :=
  let q := num / unit
  let r := num % unit
  if 2 * r < unit then q else if unit < 2 * r then q + 1 else q + q % 2

/-- The exponent of the unit to which `rne32` rounds `num / den`. -/
def roundScale (num den : ℕ) : ℕ := Nat.log2 (num / den) - 23

theorem rne32_eq (num den : ℕ) : rne32 num den =
    if (2 ^ 128 - 2 ^ 103) * f32One * den ≤ num then none
    else some (nearestEven num (den * 2 ^ roundScale num den) * 2 ^ roundScale num den) := rfl

theorem rne32_eq_none_iff {num den : ℕ} : rne32 num den = none ↔ (2 ^ 128 - 2 ^ 103) * f32One * den ≤ num := by
  simp [rne32_eq]

/-- The three places a number can have between two multiples of the unit. -/
theorem nearestEven_cases {num unit : ℕ} (hu : 0 < unit) : ∃ q r, num = q * unit + r ∧ r < unit ∧
    (2 * r < unit ∧ nearestEven num unit = q ∨ unit < 2 * r ∧ nearestEven num unit = q + 1 ∨
      2 * r = unit ∧ nearestEven num unit = q + q % 2) := by
  refine ⟨num / unit, num % unit, (Nat.div_add_mod' num unit).symm, Nat.mod_lt num hu, ?_⟩
  unfold nearestEven
  obtain h | h | h := lt_trichotomy (2 * (num % unit)) unit
  · exact .inl ⟨h, if_pos h⟩
  · exact .inr (.inr ⟨h, by rw [if_neg h.not_lt, if_neg h.not_gt]⟩)
  · exact .inr (.inl ⟨h, by rw [if_neg h.not_gt, if_pos h]⟩)

/-- The rounded number is at most half a unit away, and even where it is half a unit away. -/
theorem nearestEven_near {num unit : ℕ} (hu : 0 < unit) :
    2 * |(num : ℤ) - (nearestEven num unit * unit : ℕ)| ≤ unit ∧
    (2 * |(num : ℤ) - (nearestEven num unit * unit : ℕ)| = unit → nearestEven num unit % 2 = 0) := by
  obtain ⟨q, r, hnum, hr, ⟨h, hm⟩ | ⟨h, hm⟩ | ⟨h, hm⟩⟩ := nearestEven_cases (num := num) hu
  · have hdist : |(num : ℤ) - (nearestEven num unit * unit : ℕ)| = r := by
      rw [hm, abs_of_nonneg (by omega)]; omega
    omega
  · have hdist : |(num : ℤ) - (nearestEven num unit * unit : ℕ)| = unit - r := by
      rw [hm, Nat.succ_mul, abs_of_nonpos (by omega)]; omega
    omega
  · have hdist : |(num : ℤ) - (nearestEven num unit * unit : ℕ)| = r := by
      obtain he | ho := Nat.mod_two_eq_zero_or_one q
      · rw [hm, he, Nat.add_zero, abs_of_nonneg (by omega)]; omega
      · rw [hm, ho, Nat.succ_mul, abs_of_nonpos (by omega)]; omega
    omega

/-- `m * 2^k` is `num / den` rounded to binary32: `m` counts units of `2^k`, and the unit is the smallest with which a
significand of 24 bits reaches the number. -/
structure RoundsTo (num den m k : ℕ) : Prop where
  significand_le : m ≤ 2 ^ 24
  normal : k ≠ 0 → 2 ^ 23 * (den * 2 ^ k) ≤ num
  near : 2 * |(num : ℤ) - (m * (den * 2 ^ k) : ℕ)| ≤ (den * 2 ^ k : ℕ)
  even_of_tie : 2 * |(num : ℤ) - (m * (den * 2 ^ k) : ℕ)| = (den * 2 ^ k : ℕ) → m % 2 = 0

/-- `num / den` is below the `2^24`-th unit, and from the `2^23`-rd on unless the unit is the smallest. -/
theorem roundScale_bounds {num den : ℕ} (hden : 0 < den) :
    num < 2 ^ 24 * (den * 2 ^ roundScale num den) ∧
    (roundScale num den ≠ 0 → 2 ^ 23 * (den * 2 ^ roundScale num den) ≤ num) := by
  have hscale (a : ℕ) : 2 ^ a * (den * 2 ^ roundScale num den) = 2 ^ (a + roundScale num den) * den := by ring
  rw [hscale, hscale, ← Nat.div_lt_iff_lt_mul hden, ← Nat.le_div_iff_mul_le hden]
  refine ⟨Nat.lt_log2_self.trans_le (Nat.pow_le_pow_right two_pos ?_), fun hk => ?_⟩
  · rw [roundScale]; omega
  · have hne : num / den ≠ 0 := fun h0 => hk (by rw [roundScale, h0, Nat.log2_zero])
    refine (Nat.pow_le_pow_right two_pos ?_).trans (Nat.log2_self_le hne)
    rw [roundScale] at hk ⊢; omega

/-- What `rne32` answers, said once. -/
theorem roundsTo_of_rne32 {num den y : ℕ} (hden : 0 < den) (h : rne32 num den = some y) :
    num < (2 ^ 128 - 2 ^ 103) * f32One * den ∧ ∃ m k, y = m * 2 ^ k ∧ RoundsTo num den m k := by
  rw [rne32_eq] at h
  split at h
  · cases h
  next hlt =>
  injection h with h
  have hunit : 0 < den * 2 ^ roundScale num den := by positivity
  obtain ⟨hupper, hnormal⟩ := roundScale_bounds (num := num) hden
  obtain ⟨hnear, htie⟩ := nearestEven_near (num := num) hunit
  refine ⟨not_le.1 hlt, _, _, h.symm, ⟨?_, hnormal, hnear, htie⟩⟩
  by_contra hbig
  have hmul := Nat.mul_le_mul_right (den * 2 ^ roundScale num den) (not_le.1 hbig)
  rw [Nat.succ_mul] at hmul
  rw [abs_of_nonpos (by omega)] at hnear
  omega

/-- A magnitude on the binary32 grid is a multiple of the unit, or it is below the numbers the unit is used for. -/
theorem grid_cases {z : ℕ} (hz : OnF32Grid z) (k : ℕ) : (∃ c, z = c * 2 ^ k) ∨ k ≠ 0 ∧ z < 2 ^ 23 * 2 ^ k := by
  obtain ⟨a, e, ha, -, rfl⟩ := hz
  obtain hle | hlt := le_or_gt k e
  · refine .inl ⟨a * 2 ^ (e - k), ?_⟩
    rw [mul_assoc, ← pow_add, Nat.sub_add_cancel hle]
  · refine .inr ⟨by omega, ?_⟩
    calc a * 2 ^ e < 2 ^ 24 * 2 ^ e := Nat.mul_lt_mul_of_pos_right ha (by positivity)
      _ = 2 ^ 23 * 2 ^ (e + 1) := by ring
      _ ≤ 2 ^ 23 * 2 ^ k := Nat.mul_le_mul_left _ (Nat.pow_le_pow_right two_pos hlt)

namespace RoundsTo

variable {num den m k : ℕ}

/-- A significand under a larger unit than the smallest has all its 24 bits. -/
theorem two_pow_le (h : RoundsTo num den m k) (hden : 0 < den) : k = 0 ∨ 2 ^ 23 ≤ m := by
  refine or_iff_not_imp_left.2 fun hk => ?_
  by_contra hm
  have hunit : 0 < den * 2 ^ k := by positivity
  have hnormal := h.normal hk
  have hnear := h.near
  have hmul := Nat.mul_le_mul_right (den * 2 ^ k) (not_le.1 hm)
  rw [Nat.succ_mul] at hmul
  rw [abs_of_nonneg (by omega)] at hnear
  omega

/-- No other multiple of the unit is nearer, and one is as near on a tie only. -/
theorem near_multiple (h : RoundsTo num den m k) (c : ℕ) :
    |(num : ℤ) - (m * (den * 2 ^ k) : ℕ)| ≤ |(num : ℤ) - (c * (den * 2 ^ k) : ℕ)| ∧
    (|(num : ℤ) - (m * (den * 2 ^ k) : ℕ)| = |(num : ℤ) - (c * (den * 2 ^ k) : ℕ)| → c ≠ m → m % 2 = 0) := by
  have hnear := h.near
  have htie := h.even_of_tie
  obtain hlt | rfl | hgt := lt_trichotomy c m
  · have hmul := Nat.mul_le_mul_right (den * 2 ^ k) hlt
    rw [Nat.succ_mul] at hmul
    have := neg_le_abs ((num : ℤ) - (m * (den * 2 ^ k) : ℕ))
    have := le_abs_self ((num : ℤ) - (c * (den * 2 ^ k) : ℕ))
    omega
  · exact ⟨le_rfl, fun _ hne => absurd rfl hne⟩
  · have hmul := Nat.mul_le_mul_right (den * 2 ^ k) hgt
    rw [Nat.succ_mul] at hmul
    have := le_abs_self ((num : ℤ) - (m * (den * 2 ^ k) : ℕ))
    have := neg_le_abs ((num : ℤ) - (c * (den * 2 ^ k) : ℕ))
    omega

/-- Nothing on the binary32 grid is nearer, and where another magnitude is as near the significand is even. -/
theorem nearest (h : RoundsTo num den m k) (hden : 0 < den) {z : ℕ} (hz : OnF32Grid z) :
    |(num : ℤ) - (m * 2 ^ k * den : ℕ)| ≤ |(num : ℤ) - (z * den : ℕ)| ∧
    (|(num : ℤ) - (m * 2 ^ k * den : ℕ)| = |(num : ℤ) - (z * den : ℕ)| → z ≠ m * 2 ^ k → m % 2 = 0) := by
  have hunit (c : ℕ) : c * 2 ^ k * den = c * (den * 2 ^ k) := by ring
  rw [hunit]
  obtain ⟨c, rfl⟩ | ⟨hk, hlow⟩ := grid_cases hz k
  · rw [hunit]
    obtain ⟨hle, heq⟩ := h.near_multiple c
    exact ⟨hle, fun hd hne => heq hd fun hc => hne (by rw [hc])⟩
  · have hbelow : z * den < 2 ^ 23 * (den * 2 ^ k) := hunit _ ▸ Nat.mul_lt_mul_of_pos_right hlow hden
    have hnormal := h.normal hk
    obtain ⟨hle, -⟩ := h.near_multiple (2 ^ 23)
    rw [abs_of_nonneg (a := (num : ℤ) - (2 ^ 23 * (den * 2 ^ k) : ℕ)) (by omega)] at hle
    rw [abs_of_nonneg (a := (num : ℤ) - (z * den : ℕ)) (by omega)]
    omega

end RoundsTo

end Sys2Proof.Machine
end

/-! ### Patterns and their values -/

section
namespace Sys2Proof.Machine

open Sys2Proof.Claims

theorem f32Exp_eq (f : Word) : f32Exp f = f.toNat / 2 ^ 23 % 2 ^ 8 := by
  rw [f32Exp, BitVec.extractLsb'_toNat, Nat.shiftRight_eq_div_pow]

theorem f32Frac_eq (f : Word) : f32Frac f = f.toNat % 2 ^ 23 := by
  rw [f32Frac, BitVec.extractLsb'_toNat, Nat.shiftRight_zero]

/-- The magnitude of a finite pattern counts units of `2^-149` (00_scope.md R16). -/
theorem abs_f32Value (f : Word) : |f32Value f| = f32Magnitude f / 2 ^ 149 := by
  have hsign : |f32SignFactor f| = 1 := by
    rw [f32SignFactor]
    split <;> simp
  rw [f32Value, abs_mul, hsign, one_mul, f32Magnitude, f32Exp_eq, f32Frac_eq]
  split
  · rw [abs_of_nonneg (by positivity), zpow_neg, ← div_eq_mul_inv]
    norm_cast
  next he =>
  obtain ⟨e, he⟩ := Nat.exists_eq_succ_of_ne_zero he
  have hscale : (2 : ℚ) ^ (((e + 1 : ℕ) : ℤ) - 150) = 2 ^ e / 2 ^ 149 := by
    rw [show ((e + 1 : ℕ) : ℤ) - 150 = (e : ℤ) - (149 : ℕ) by push_cast; ring, zpow_sub₀ two_ne_zero, zpow_natCast,
      zpow_natCast]
  rw [he, abs_of_nonneg (by positivity), hscale, Nat.succ_sub_one, ← mul_div_assoc]
  push_cast
  rfl

theorem onF32Grid_f32Magnitude {f : Word} (hf : F32Finite f) : OnF32Grid (f32Magnitude f) := by
  rw [F32Finite, ← f32Exp_eq] at hf
  have hexp := f32Exp_eq f
  have hfrac := f32Frac_eq f
  rw [f32Magnitude]
  split
  · exact ⟨f32Frac f, 0, by omega, by omega, by omega⟩
  · exact ⟨2 ^ 23 + f32Frac f, f32Exp f - 1, by omega, by omega, rfl⟩

/-- A significand with its 24 bits, or any below `2^24` under the smallest unit, stands in the pattern with the unit's
exponent above it; `2^24` carries into the exponent. -/
theorem f32Pattern_mul_two_pow {m k : ℕ} (hm : m ≤ 2 ^ 24) (hk : k = 0 ∨ 2 ^ 23 ≤ m) :
    f32Pattern (m * 2 ^ k) = k * 2 ^ 23 + m := by
  have hpos : 0 < 2 ^ k := by positivity
  obtain hlow | hhigh := lt_or_ge m (2 ^ 23)
  · obtain rfl : k = 0 := by omega
    have hlog : Nat.log2 m - 23 = 0 := by
      obtain rfl | hne := eq_or_ne m 0
      · rfl
      · have := (Nat.log2_lt hne).2 hlow
        omega
    simp [f32Pattern, hlog]
  · have hne : m * 2 ^ k ≠ 0 := by positivity
    obtain rfl | hlt := eq_or_lt_of_le hm
    · have hlog : Nat.log2 (2 ^ 24 * 2 ^ k) = 24 + k := by rw [← pow_add, Nat.log2_two_pow]
      rw [f32Pattern, hlog, show 24 + k - 23 = k + 1 by omega, pow_succ 2 k, ← Nat.div_div_eq_div_mul,
        Nat.mul_div_cancel _ hpos]
      omega
    · have hlog : Nat.log2 (m * 2 ^ k) = 23 + k := by
        rw [Nat.log2_eq_iff hne, pow_add, show 23 + k + 1 = 24 + k by omega, pow_add]
        exact ⟨Nat.mul_le_mul_right _ hhigh, Nat.mul_lt_mul_of_pos_right hlt hpos⟩
      rw [f32Pattern, hlog, show 23 + k - 23 = k by omega, Nat.mul_div_cancel _ hpos]

/-- The pattern of a magnitude reads back as the magnitude. -/
theorem f32Magnitude_of_pattern {f : Word} {m k : ℕ} (hm : m ≤ 2 ^ 24) (hk : k = 0 ∨ 2 ^ 23 ≤ m)
    (hf : f.toNat % 2 ^ 31 = k * 2 ^ 23 + m) : f32Magnitude f = m * 2 ^ k := by
  have hexp := f32Exp_eq f
  have hfrac := f32Frac_eq f
  rw [f32Magnitude]
  obtain hlow | hhigh := lt_or_ge m (2 ^ 23)
  · obtain rfl : k = 0 := by omega
    rw [if_pos (by omega)]
    omega
  · rw [if_neg (by omega)]
    obtain rfl | hlt := eq_or_lt_of_le hm
    · rw [show f32Exp f - 1 = k + 1 by omega, show f32Frac f = 0 by omega]
      ring
    · rw [show f32Exp f - 1 = k by omega, show 2 ^ 23 + f32Frac f = m by omega]

/-- The overflow threshold is half a unit below the `2^24`-th unit of the largest scale. -/
theorem overflow_eq (den : ℕ) : (2 ^ 128 - 2 ^ 103) * f32One * den = (2 ^ 25 - 1) * (den * 2 ^ 252) := by
  rw [show (2 ^ 128 - 2 ^ 103) * f32One = (2 ^ 25 - 1) * 2 ^ 252 by decide]
  ring

/-- Below the overflow threshold the rounded number has a finite pattern. -/
theorem RoundsTo.pattern_lt {num den m k : ℕ} (h : RoundsTo num den m k)
    (hnum : num < (2 ^ 128 - 2 ^ 103) * f32One * den) : k * 2 ^ 23 + m < 255 * 2 ^ 23 := by
  rw [overflow_eq] at hnum
  have hm := h.significand_le
  obtain hk | rfl | hk := lt_trichotomy k 253
  · omega
  · have hhalf : den * 2 ^ 253 = 2 * (den * 2 ^ 252) := by ring
    have hnear := h.near
    rw [hhalf] at hnear
    have hlt : m < 2 ^ 24 := by
      by_contra hmax
      obtain rfl : m = 2 ^ 24 := by omega
      rw [abs_of_nonpos (by omega)] at hnear
      omega
    omega
  · have hnormal := h.normal (by omega)
    have hscale : den * 2 ^ 254 ≤ den * 2 ^ k := Nat.mul_le_mul_left _ (Nat.pow_le_pow_right two_pos hk)
    have hquarter : den * 2 ^ 254 = 4 * (den * 2 ^ 252) := by ring
    omega

/-- A pattern of 31 bits below a sign bit. -/
theorem sign_and_magnitude_ofNat {p : ℕ} (hp : p < 2 ^ 31) (negative : Bool) {f : Word}
    (hf : f = BitVec.ofNat 32 (p + if negative then 2 ^ 31 else 0)) :
    f.getLsbD 31 = negative ∧ f.toNat % 2 ^ 31 = p := by
  have htoNat : f.toNat = p + if negative then 2 ^ 31 else 0 := by
    rw [hf, BitVec.toNat_ofNat, Nat.mod_eq_of_lt (by split <;> omega)]
  have hsign : f.getLsbD 31 = decide (2 ^ 31 ≤ f.toNat) := BitVec.msb_eq_decide f
  rw [hsign, htoNat]
  cases negative <;> simp <;> omega

theorem f32OfDecimal_of_none {negative : Bool} {digits fraction : ℕ}
    (h : rne32 (digits * f32One) (10 ^ fraction) = none) :
    f32OfDecimal negative digits fraction = BitVec.ofNat 32 (0x7F800000 + if negative then 2 ^ 31 else 0) := by
  simp [f32OfDecimal, h]

theorem f32OfDecimal_of_some {negative : Bool} {digits fraction y : ℕ}
    (h : rne32 (digits * f32One) (10 ^ fraction) = some y) :
    f32OfDecimal negative digits fraction = BitVec.ofNat 32 (f32Pattern y + if negative then 2 ^ 31 else 0) := by
  simp [f32OfDecimal, h]

/-- The infinity of the literal's sign, from the overflow threshold on. -/
theorem f32OfDecimal_overflow {negative : Bool} {digits fraction : ℕ}
    (h : rne32 (digits * f32One) (10 ^ fraction) = none) :
    (f32OfDecimal negative digits fraction).getLsbD 31 = negative ∧
    (f32OfDecimal negative digits fraction).toNat % 2 ^ 31 = 0x7F800000 :=
  sign_and_magnitude_ofNat (by omega) negative (f32OfDecimal_of_none h)

/-- Below the threshold the pattern is finite, has the literal's sign, and its magnitude is the rounded literal. -/
theorem f32OfDecimal_rounded {negative : Bool} {digits fraction y : ℕ}
    (h : rne32 (digits * f32One) (10 ^ fraction) = some y) :
    (f32OfDecimal negative digits fraction).getLsbD 31 = negative ∧
    F32Finite (f32OfDecimal negative digits fraction) ∧
    ∃ m k, RoundsTo (digits * f32One) (10 ^ fraction) m k ∧
      f32Magnitude (f32OfDecimal negative digits fraction) = m * 2 ^ k ∧
      (f32OfDecimal negative digits fraction).toNat % 2 = m % 2 := by
  have hden : 0 < 10 ^ fraction := by positivity
  obtain ⟨hlt, m, k, rfl, hround⟩ := roundsTo_of_rne32 hden h
  have hnormal := hround.two_pow_le hden
  have hfinite := hround.pattern_lt hlt
  have hf := f32OfDecimal_of_some (negative := negative) h
  rw [f32Pattern_mul_two_pow hround.significand_le hnormal] at hf
  obtain ⟨hsign, hpattern⟩ := sign_and_magnitude_ofNat (by omega) negative hf
  refine ⟨hsign, ?_, m, k, hround, f32Magnitude_of_pattern hround.significand_le hnormal hpattern, by omega⟩
  rw [F32Finite]
  omega

/-- The distance of a decimal from a magnitude, in whole parts of `2^-149 / 10^fraction`. -/
theorem abs_decimal_sub (digits fraction M : ℕ) :
    |(digits : ℚ) / 10 ^ fraction - M / 2 ^ 149| =
      (|((digits * f32One : ℕ) : ℤ) - (M * 10 ^ fraction : ℕ)| : ℤ) / (10 ^ fraction * 2 ^ 149 : ℚ) := by
  have hparts : |(10 ^ fraction * 2 ^ 149 : ℚ)| = 10 ^ fraction * 2 ^ 149 := abs_of_pos (by positivity)
  rw [Int.cast_abs, ← hparts, ← abs_div, div_sub_div _ _ (by positivity) (by positivity), f32One]
  push_cast
  ring_nf

/-- The overflow threshold of `rne32` on a decimal, as a number. -/
theorem rne32_decimal_eq_none_iff {digits fraction : ℕ} :
    rne32 (digits * f32One) (10 ^ fraction) = none ↔ (2 ^ 128 - 2 ^ 103 : ℚ) ≤ (digits : ℚ) / 10 ^ fraction := by
  have hone : 0 < f32One := by decide
  rw [rne32_eq_none_iff, mul_right_comm, Nat.mul_le_mul_right_iff hone, le_div_iff₀ (by positivity),
    ← Nat.cast_le (α := ℚ)]
  norm_num

end Sys2Proof.Machine

namespace Sys2Proof.Claims

open Sys2Proof.Machine

/-- Settles O55: the pattern holds the rounded literal, and all distances are counted in the same parts. -/
theorem decimalLiteralIsNearestBinary32 : Obligations.DecimalLiteralIsNearestBinary32 := by
  rintro negative digits fraction q f rfl rfl
  rw [dutyPattern, ← rne32_decimal_eq_none_iff, ← not_le, ← rne32_decimal_eq_none_iff]
  cases hy : rne32 (digits * f32One) (10 ^ fraction) with
  | none =>
    obtain ⟨hsign, hinfinity⟩ := f32OfDecimal_overflow (negative := negative) hy
    exact ⟨hsign, fun _ => hinfinity, fun hne => absurd rfl hne⟩
  | some y =>
    obtain ⟨hsign, hfinite, m, k, hround, hmagnitude, hparity⟩ := f32OfDecimal_rounded (negative := negative) hy
    refine ⟨hsign, (nomatch ·), fun _ => ⟨hfinite, fun g hg => ?_⟩⟩
    have hparts : (0 : ℚ) < 10 ^ fraction * 2 ^ 149 := by positivity
    obtain ⟨hle, htie⟩ := hround.nearest (by positivity) (onF32Grid_f32Magnitude hg)
    simp only [abs_f32Value, abs_decimal_sub, hmagnitude]
    rw [div_le_div_iff_of_pos_right hparts, div_left_inj' hparts.ne', Int.cast_le, Int.cast_inj, hparity]
    refine ⟨hle, fun heq hne => htie heq fun hz => hne ?_⟩
    rw [hz]

end Sys2Proof.Claims
end

/-! PROOFS of the family 40_registry.md: CONFIG, how INIT uses the registry, and what every command leaves of it. -/

section
namespace Sys2Proof.Machine

open Sys2Proof.Claims

/-! ### CONFIG -/

theorem runConfig_of_badArgument {s : State} {i : DescIndex} {t : TimerIndex} {ch : Channel} {v : Word}
    (h : BadArgument (.config i t ch v) s) : runConfig i t ch v s = (.invalidArgument, s) := by
  unfold runConfig
  split
  · rfl
  split
  · rfl
  split
  · rfl
  next hi htc hs =>
    obtain h | h | h | h | h := h
    · exact absurd h hi
    · exact absurd (.inl h) htc
    · exact absurd (.inr (.inl h)) htc
    · exact absurd (.inr (.inr h)) htc
    · exact absurd h hs

theorem runConfig_of_not_badArgument {s : State} {i : DescIndex} {t : TimerIndex} {ch : Channel} {v : Word}
    (h : ¬ BadArgument (.config i t ch v) s) :
    runConfig i t ch v s = (.ok, modDesc i (configure t ch v) s) := by
  simp only [BadArgument, not_or] at h
  obtain ⟨hi, ht, hlo, hhi, hs⟩ := h
  rw [runConfig, if_neg hi, if_neg (by simp only [not_or]; exact ⟨ht, hlo, hhi⟩), if_neg hs]
  rfl

/-! ### The outcomes of INIT -/

theorem runInit_of_absent {s : State} {i : DescIndex} (hp : present s i = false) :
    runInit i s = (.invalidArgument, s) := by
  simp [runInit, hp, raise]

theorem runInit_of_full {s : State} {i : DescIndex} (hp : present s i = true) (hc : s.regCount.toNat = 16)
    (hr : i ∉ regList s) : runInit i s = (.capacityExceeded, s) := by
  simp [runInit, hp, registered, hr, registryFull, hc, raise]

/-- A present descriptor that is registered, or finds room in the registry, is initialized. -/
theorem runInit_of_room {s : State} {i : DescIndex} (hp : present s i = true)
    (hroom : i ∈ regList s ∨ s.regCount.toNat ≠ 16) (x : Word) :
    ∃ u, CommandEffect s (.init i x) u ∧ runInit i s = (.ok, u) := by
  have hok : (runInit i s).1 = .ok := by
    have hnotfull : ¬ (!registered s i && registryFull s) = true := by
      simpa [registered, registryFull, or_iff_not_imp_left] using hroom
    rw [runInit, if_neg (by simp [hp]), if_neg hnotfull]
    rfl
  obtain ⟨hc, -⟩ | ⟨-, he⟩ := runInit_endsAs i x s
  · exact absurd hok hc
  · exact ⟨_, he, Prod.ext hok rfl⟩

/-- INIT ends in exactly one of three ways, told apart by presence and room in the registry. -/
theorem runInit_cases (i : DescIndex) (x : Word) (s : State) :
    (present s i = false ∧ runInit i s = (.invalidArgument, s)) ∨
    ((present s i = true ∧ s.regCount.toNat = 16 ∧ i ∉ regList s) ∧ runInit i s = (.capacityExceeded, s)) ∨
    ((present s i = true ∧ (i ∈ regList s ∨ s.regCount.toNat ≠ 16)) ∧
      ∃ u, CommandEffect s (.init i x) u ∧ runInit i s = (.ok, u)) := by
  cases hp : present s i with
  | false => exact .inl ⟨rfl, runInit_of_absent hp⟩
  | true =>
    by_cases hfull : s.regCount.toNat = 16 ∧ i ∉ regList s
    · exact .inr (.inl ⟨⟨rfl, hfull⟩, runInit_of_full hp hfull.1 hfull.2⟩)
    · have hroom : i ∈ regList s ∨ s.regCount.toNat ≠ 16 := by tauto
      exact .inr (.inr ⟨⟨rfl, hroom⟩, runInit_of_room hp hroom x⟩)

/-! ### The registry after a command -/

theorem registryGood_of_inv {s : State} (h : s.Inv) : s.RegistryGood := by
  obtain ⟨-, -, hgood, -⟩ := h
  exact hgood

theorem regList_congr {s t : State} (hslot : t.regSlot = s.regSlot) (hcount : t.regCount = s.regCount) :
    regList t = regList s := by
  rw [regList, hslot, hcount, regList]

theorem mem_regList_appendReg {s : State} (h : s.regCount.toNat < 16) (i : DescIndex) :
    i ∈ regList (appendReg i s) := by
  rw [regList_appendReg h]
  exact List.mem_append_right _ (List.mem_singleton_self i)

namespace CommandEffect

variable {i : Instr} {s t : State}

/-- The registered descriptors stay as they are, or INIT puts a new one behind them. -/
theorem regList_cases (h : CommandEffect s i t) (hcap : s.regCount.toNat ≤ 16) :
    regList t = regList s ∨ ∃ d x, i = .init d x ∧ d ∉ regList s ∧ regList t = regList s ++ [d] := by
  by_cases hi : opOf i = 0x2
  · cases h with
    | initRegistered => exact .inl rfl
    | initUnregistered hp hr hc => exact .inr ⟨_, _, rfl, hr, regList_appendReg (lt_of_le_of_ne hcap hc) _⟩
    | _ => simp [opOf] at hi
  · obtain ⟨hslot, hcount⟩ := h.registry_eq hi
    exact .inl (regList_congr hslot hcount)

theorem regList_prefix (h : CommandEffect s i t) (hcap : s.regCount.toNat ≤ 16) : regList s <+: regList t := by
  obtain heq | ⟨d, x, -, -, heq⟩ := h.regList_cases hcap
  · exact heq ▸ List.prefix_rfl
  · exact heq ▸ List.prefix_append _ _

/-- INIT of a registered descriptor writes no field of the registry (40_registry.md R87). -/
theorem registry_eq_of_init {d : DescIndex} {x : Word} (h : CommandEffect s (.init d x) t) (hr : d ∈ regList s) :
    t.regSlot = s.regSlot ∧ t.regCount = s.regCount := by
  cases h with
  | initRegistered => exact ⟨rfl, rfl⟩
  | initUnregistered hp hnot => exact absurd hr hnot

theorem mem_regList_of_init {d : DescIndex} {x : Word} (h : CommandEffect s (.init d x) t)
    (hcap : s.regCount.toNat ≤ 16) : d ∈ regList t := by
  cases h with
  | initRegistered hp hr => exact hr
  | initUnregistered hp hr hc => exact mem_regList_appendReg (lt_of_le_of_ne hcap hc) d

end CommandEffect

/-- INIT of a present descriptor that is registered or finds room ends with OK and its effect. -/
theorem exec_init_of_room {s : State} {i : DescIndex} (hp : present s i = true)
    (hroom : i ∈ regList s ∨ s.regCount.toNat ≠ 16) (x : Word) :
    ∃ u, CommandEffect s (.init i x) u ∧ exec (.init i x) s = .next { u with code := .ok, lastOp := 0x2 } := by
  obtain ⟨u, he, hrun⟩ := runInit_of_room hp hroom x
  refine ⟨u, he, ?_⟩
  rw [exec_eq_finish, runOf, hrun]
  rfl

/-- INIT of a registered descriptor ends with OK and leaves the registry as it was (40_registry.md R87). -/
theorem exec_init_of_registered {s : State} (hs : s.Inv) {i : DescIndex} (hr : i ∈ regList s) (x : Word) :
    ∃ t, exec (.init i x) s = .next t ∧ t.code = .ok ∧ t.regSlot = s.regSlot ∧ t.regCount = s.regCount := by
  obtain ⟨-, -, hpresent, -⟩ := registryGood_of_inv hs
  obtain ⟨u, he, hx⟩ := exec_init_of_room (hpresent i hr) (.inl hr) x
  exact ⟨_, hx, rfl, he.registry_eq_of_init hr⟩

end Sys2Proof.Machine
end

section
namespace Sys2Proof.Claims

open Sys2Proof.Machine

/-- Settles O27: the first INIT leaves the descriptor registered, and a good registry names no descriptor twice. -/
theorem initTwiceRegistersOnce : Obligations.InitTwiceRegistersOnce := by
  intro s i v w hs hp hroom
  obtain ⟨-, hcap, -, -⟩ := registryGood_of_inv hs
  obtain ⟨t, he, ht⟩ := exec_init_of_room hp (hroom.imp_right Nat.ne_of_lt) v
  have hmem : i ∈ regList t := he.mem_regList_of_init hcap
  have htinv := inv_of_exec hs ht
  obtain ⟨u, hu, hcode, hslot, hcount⟩ := exec_init_of_registered htinv hmem w
  obtain ⟨hnodup, -⟩ := registryGood_of_inv htinv
  exact ⟨_, u, ht, hu, rfl, hcode, he.registry_eq_of_init, hslot, hcount,
    regList_congr hslot hcount ▸ List.count_eq_one_of_mem hnodup hmem⟩

/-- Settles O42: only INIT writes the registry, and it adds at the end. -/
theorem registryOnlyGrows : Obligations.RegistryOnlyGrows := by
  rintro i s t ⟨-, hcap, -, -⟩ h
  obtain ⟨c, -, rfl⟩ | ⟨u, he, rfl⟩ := exec_cases h
  · exact List.prefix_rfl
  · exact he.regList_prefix hcap

/-- Settles O24. -/
theorem configRule : Obligations.ConfigRule := by
  intro s i t ch v
  refine ⟨fieldsOf_encode _, fun hbad => ?_, fun hi ht hlo hhi hs => ?_⟩
  · rw [exec_eq_finish, runOf, runConfig_of_badArgument hbad]
    rfl
  · have hgood : ¬ BadArgument (.config i t ch v) s := by
      rw [BadArgument, hs]
      simp only [reduceCtorEq, or_false]
      omega
    rw [exec_eq_finish, runOf, runConfig_of_not_badArgument hgood]
    rfl

/-- Settles O26: CAPACITY_EXCEEDED belongs to one of the three ways INIT can end, and to its condition. -/
theorem capacityExceededExactlyWhenFull : Obligations.CapacityExceededExactlyWhenFull := by
  refine ⟨rfl, fun s t i v h => ?_⟩
  obtain rfl := exec_next h
  rw [runOf]
  obtain ⟨hp, hrun⟩ | ⟨hfull, hrun⟩ | ⟨⟨hp, hroom⟩, u, -, hrun⟩ := runInit_cases i v s <;> rw [hrun]
  · exact ⟨⟨Code.noConfusion, fun ⟨hpresent, _⟩ => by simp [hp] at hpresent⟩, Code.noConfusion⟩
  · exact ⟨⟨fun _ => hfull, fun _ => rfl⟩, fun _ => rfl⟩
  · exact ⟨⟨Code.noConfusion, fun ⟨_, hc, hr⟩ => (hroom.elim hr (· hc)).elim⟩, Code.noConfusion⟩

/-- Settles O36: the siblings are a filter of the registry, and a filter keeps order and multiplicity. -/
theorem siblingsAreRegisteredActive : Obligations.SiblingsAreRegisteredActive := fun s t =>
  ⟨mem_siblings s t, List.filter_sublist, fun _ ht hs => List.count_filter (decide_eq_true ⟨ht, hs⟩)⟩

end Sys2Proof.Claims
end

/-! PROOFS of the family 41_lifecycle.md: INIT, DEINIT, START and STOP. -/

section
namespace Sys2Proof.Machine

open Sys2Proof.Claims

/-! ### From how `Run` ends to what the command answers -/

/-- A command whose `Run` ends with the state untouched has written STATUS only. -/
theorem exec_of_runOf_untouched {i : Instr} {s : State} {c : Code} (h : runOf i s = (c, s)) :
    exec i s = .next (statusOnly s c (opOf i)) := by
  rw [exec_eq_finish, h]
  rfl

/-- A command whose `Run` ends with OK has its effect. -/
theorem exec_of_runOf_ok {i : Instr} {s : State} (h : (runOf i s).1 = .ok) :
    ∃ u, CommandEffect s i u ∧ exec i s = .next { u with code := .ok, lastOp := opOf i } := by
  obtain ⟨hc, -⟩ | ⟨-, he⟩ := runOf_endsAs i s
  · exact absurd h hc
  · exact ⟨_, he, by rw [exec_eq_finish, finish_next, h]⟩

/-- Every command that names a descriptor, CONFIG and RDDESC aside, tests first whether it is present
(60_exceptions.md R127). -/
theorem exec_of_absent {i : Instr} {s : State} {d : DescIndex} (hd : descOf? i = some d) (hp : present s d = false)
    (hop : ¬ (opOf i = 0x1 ∨ opOf i = 0x9)) : exec i s = .next (statusOnly s .invalidArgument (opOf i)) := by
  refine exec_of_runOf_untouched ?_
  cases i with
  | config => exact absurd (.inl rfl) hop
  | rddesc => exact absurd (.inr rfl) hop
  | rdeng => cases hd
  | init => cases hd; exact runInit_of_absent hp
  | deinit | start | stop | setper | setduty | setfreq =>
    cases hd
    simp [runOf, runDeinit, runStart, runStop, runSetper, runSetduty, runSetfreq, hp, raise]

/-! ### Which lifecycle commands end with OK -/

variable {s : State} {i : DescIndex}

theorem runDeinit_ok_of_present (hp : present s i = true) : (runDeinit i s).1 = .ok := by
  simp [runDeinit, hp, done]

theorem runStart_of_active (hp : present s i = true) (hs : (descAt s i).state = .active) :
    runStart i s = (.skip, s) := by
  simp [runStart, hp, hs, skip]

theorem runStart_ok_of_inactive (hp : present s i = true) (hs : (descAt s i).state = .inactive) :
    (runStart i s).1 = .ok := by
  simp [runStart, hp, hs, done]

theorem runStop_ok_of_present (hp : present s i = true) : (runStop i s).1 = .ok := by
  simp [runStop, hp, done]

/-! ### The reload of a period -/

theorem toNat_reloadValue (v cs : ℕ) : (reloadValue v cs).toNat = (2 + v * cs) % 2 ^ 32 := BitVec.toNat_ofNat _ _

theorem reloadValue_eq_of_toNat {v cs : ℕ} {r : Word} (h : r.toNat = (2 + v * cs) % 2 ^ 32) : reloadValue v cs = r :=
  BitVec.eq_of_toNat_eq ((toNat_reloadValue v cs).trans h.symm)

end Sys2Proof.Machine
end

section
namespace Sys2Proof.Claims

open Sys2Proof.Machine

/-- Settles O25: a registered descriptor leaves the registry alone, an unregistered one is appended to it. -/
theorem initRule : Obligations.InitRule := by
  intro s i v
  refine ⟨fieldsOf_encode _, fun hp => exec_of_absent rfl hp (by simp [opOf]),
    fun hp hr hc => exec_of_runOf_untouched (runInit_of_full hp hc hr), fun hp hroom => ?_⟩
  obtain ⟨u, he, hx⟩ := exec_init_of_room hp (hroom.imp_right Nat.ne_of_lt) v
  cases he with
  | initRegistered _ hr => exact ⟨_, _, hx, fun _ => ⟨rfl, rfl⟩, fun hnot => absurd hr hnot⟩
  | initUnregistered _ hr =>
    have hlt : s.regCount.toNat < 16 := hroom.resolve_left hr
    have hcount := regCount_appendReg hlt i
    exact ⟨_, _, hx, fun hmem => absurd hmem hr,
      fun _ => ⟨hcount, regList_appendReg hlt i, drop_appendReg i (hcount ▸ Nat.lt_succ_self _)⟩⟩

/-- Settles O28. -/
theorem deinitRule : Obligations.DeinitRule := by
  intro s i v
  refine ⟨fieldsOf_encode _, fun hp => exec_of_absent rfl hp (by simp [opOf]), fun hp => ?_⟩
  obtain ⟨u, he, hx⟩ := exec_of_runOf_ok (i := .deinit i v) (runDeinit_ok_of_present hp)
  cases he with
  | deinit => exact hx

/-- Settles O29: the fan-out is the one of the state before the command, because the starting descriptor is no sibling
yet (`CommandEffect.start`). -/
theorem startRule : Obligations.StartRule := by
  intro s i v
  refine ⟨fieldsOf_encode _, fun hp => exec_of_absent rfl hp (by simp [opOf]),
    fun hp hs => exec_of_runOf_untouched (runStart_of_active hp hs), fun hp hs r hr => ?_⟩
  obtain ⟨u, he, hx⟩ := exec_of_runOf_ok (i := .start i v) (runStart_ok_of_inactive hp hs)
  cases he with
  | start =>
    rw [hx, reloadValue_eq_of_toNat hr, applyReload_eq_fanOut, fanOut_emit]
    rfl

/-- Settles O30. -/
theorem stopRule : Obligations.StopRule := by
  intro s i v
  refine ⟨fieldsOf_encode _, fun hp => exec_of_absent rfl hp (by simp [opOf]), fun hp => ?_⟩
  obtain ⟨u, he, hx⟩ := exec_of_runOf_ok (i := .stop i v) (runStop_ok_of_present hp)
  cases he with
  | stop => exact hx

end Sys2Proof.Claims
end

/-! PROOFS of the family 42_period_duty.md: compare values, reloads, frequencies and duties as numbers, then SETPER,
SETDUTY and SETFREQ, and what the timers hold after any command. -/

/-! ### Compare, reload and frequency -/

section
namespace Sys2Proof.Machine

/-- The full-on sentinel (42_period_duty.md R110). -/
theorem toNat_compareValue_full (r : Word) : (compareValue 1000 r).toNat = (r.toNat + 100) % 2 ^ 32 :=
  BitVec.toNat_ofNat _ _

/-- A duty short of full on is at most 999 permille of the reload. -/
theorem one_add_duty_mul_div_le {d : ℕ} (hhi : d ≤ 999) (n : ℕ) : 1 + d * n / 1000 ≤ 1 + 999 * n / 1000 :=
  Nat.add_le_add_left (Nat.div_le_div_right (Nat.mul_le_mul_right n hhi)) 1

/-- Between off and full on nothing wraps. -/
theorem toNat_compareValue_between {d : ℕ} (hlo : 1 ≤ d) (hhi : d ≤ 999) (r : Word) :
    (compareValue d r).toNat = 1 + d * r.toNat / 1000 := by
  have hr := r.isLt
  have hle := one_add_duty_mul_div_le hhi r.toNat
  have hne : d ≠ 1000 := by omega
  rw [compareValue, if_neg (by omega), if_neg hne, BitVec.toNat_ofNat]
  exact Nat.mod_eq_of_lt (show 1 + d * r.toNat / 1000 < 2 ^ 32 by omega)

theorem duty_cases {d : ℕ} (h : d ≤ 1000) : d = 0 ∨ (1 ≤ d ∧ d ≤ 999) ∨ d = 1000 := by omega

/-- No compare is more than the sentinel's offset above its reload. -/
theorem toNat_compareValue_le {d : ℕ} (h : d ≤ 1000) (r : Word) : (compareValue d r).toNat ≤ r.toNat + 100 := by
  obtain rfl | ⟨hlo, hhi⟩ | rfl := duty_cases h
  · exact Nat.zero_le _
  · have hle := one_add_duty_mul_div_le hhi r.toNat
    rw [toNat_compareValue_between hlo hhi]
    omega
  · rw [toNat_compareValue_full]
    exact Nat.mod_le _ _

/-- Where the sentinel does not wrap, a longer duty has no smaller compare. -/
theorem toNat_compareValue_mono {d d' : ℕ} {r : Word} (hr : r.toNat < 2 ^ 32 - 100) (hd : d ≤ d') (h : d' ≤ 1000) :
    (compareValue d r).toNat ≤ (compareValue d' r).toNat := by
  obtain rfl | ⟨hlo', hhi'⟩ | rfl := duty_cases h
  · obtain rfl : d = 0 := by omega
    exact le_rfl
  · obtain rfl | hlo := Nat.eq_zero_or_pos d
    · exact Nat.zero_le _
    · rw [toNat_compareValue_between hlo (hd.trans hhi'), toNat_compareValue_between hlo' hhi']
      gcongr
  · rw [toNat_compareValue_full, Nat.mod_eq_of_lt (by omega)]
    exact toNat_compareValue_le hd r

theorem reloadValue_exact_iff (v cs : ℕ) : (reloadValue v cs).toNat = 2 + v * cs ↔ v * cs < 2 ^ 32 - 2 := by
  rw [toNat_reloadValue]
  omega

theorem freqToPeriod_of_lt {v : ℕ} (h : v < 10) : freqToPeriod v = none :=
  if_pos (Nat.div_eq_of_lt h)

theorem freqToPeriod_of_le {v : ℕ} (h : 10 ≤ v) : freqToPeriod v = some (100000 / (v / 10)) :=
  if_neg (show v / 10 ≠ 0 by omega)

theorem freqToPeriod_eq_some {v p : ℕ} (h : freqToPeriod v = some p) : 10 ≤ v ∧ p = 100000 / (v / 10) := by
  obtain hlt | hle := lt_or_ge v 10
  · rw [freqToPeriod_of_lt hlt] at h
    cases h
  · rw [freqToPeriod_of_le hle] at h
    exact ⟨hle, (Option.some.inj h).symm⟩

end Sys2Proof.Machine

namespace Sys2Proof.Claims

open Sys2Proof.Machine

/-- Settles O16. -/
theorem compareFormula : Obligations.CompareFormula := by
  refine fun d r => ⟨rfl, toNat_compareValue_full r, fun hlo hhi => ?_⟩
  have hr := r.isLt
  have hle := one_add_duty_mul_div_le hhi r.toNat
  rw [toNat_compareValue_between hlo hhi]
  omega

/-- Settles O17: (a) holds below the sentinel's wrap, and (b) fails above it. -/
theorem comparePropertiesHold : Obligations.ComparePropertiesHold := by
  refine ⟨fun d d' r _ hr hd hd' => toNat_compareValue_mono hr hd hd', fun r hr => ?_, fun d hlo hhi => ?_, rfl,
    fun v cs hfits => ?_⟩
  · have hlt := r.isLt
    have hwrap : (r.toNat + 100) % 2 ^ 32 < 100 := by omega
    rw [toNat_compareValue_full, toNat_compareValue_between (by omega) le_rfl]
    omega
  · refine BitVec.eq_of_toNat_eq ((toNat_compareValue_between hlo hhi 0).trans ?_)
    simp
  · rw [toNat_compareValue_full, (reloadValue_exact_iff v cs).2 (by omega), Nat.mod_eq_of_lt hfits]

/-- Settles O18. -/
theorem reloadFormula : Obligations.ReloadFormula := fun v cs _ _ =>
  ⟨toNat_reloadValue v cs, rfl, by rw [reloadValue, Nat.zero_mul]; rfl, reloadValue_exact_iff v cs⟩

/-- Settles O19: a period of at most 100000 times a clock scale below 42950 stays below `2^32 - 2`. -/
theorem frequencyToPeriod : Obligations.FrequencyToPeriod := by
  refine ⟨fun v => freqToPeriod_of_lt, fun q r hq hr => ?_, fun v p h => ?_, rfl, by omega⟩
  · rw [freqToPeriod_of_le (by omega), show (10 * q + r) / 10 = q by omega]
  · obtain ⟨hv, rfl⟩ := freqToPeriod_eq_some h
    have hle : 100000 / (v / 10) ≤ 100000 := Nat.div_le_self _ _
    refine ⟨hle, fun hbig => Nat.div_eq_of_lt (by omega), fun cs hcs => (reloadValue_exact_iff _ cs).2 ?_⟩
    have hmul := Nat.mul_le_mul hle (Nat.le_of_lt_succ hcs)
    omega

end Sys2Proof.Claims
end

/-! ### SETPER, SETDUTY and SETFREQ -/

section
namespace Sys2Proof.Machine

open Sys2Proof.Claims

variable {s : State} {i : DescIndex}

theorem runSetper_of_present (hp : present s i = true) (v : Word) : runSetper i v s = (.ok, changePeriod i v s) := by
  simp [runSetper, hp, done]

theorem runSetfreq_of_lt (hp : present s i = true) {v : Word} (hv : v.toNat < 10) :
    runSetfreq i v s = (.divideByZero, s) := by
  rw [runSetfreq, hp, freqToPeriod_of_lt hv]
  rfl

/-- The period of a frequency fits the register (42_period_duty.md R103). -/
theorem runSetfreq_of_le (hp : present s i = true) {v p : Word} (hv : 10 ≤ v.toNat)
    (h : p.toNat = 100000 / (v.toNat / 10)) : runSetfreq i v s = (.ok, changePeriod i p s) := by
  have hperiod : BitVec.ofNat 32 p.toNat = p := by simp
  rw [runSetfreq, hp, freqToPeriod_of_le hv, ← h]
  exact congrArg (fun q => done (changePeriod i q s)) hperiod

/-- The state that a change of period ends in, the reload given as a number. -/
theorem changePeriod_eq_fanOut {v r : Word} (hr : r.toNat = (2 + v.toNat * (descAt s i).cs.toNat) % 2 ^ 32) :
    changePeriod i v s =
      modDesc i (withPeriod v) (emitAll (fanOut s (descAt s i).tmr r) (setShadow (descAt s i).tmr r s)) := by
  rw [changePeriod_eq, reloadValue_eq_of_toNat hr, applyReload_eq_fanOut]

/-- SETDUTY refuses an operand without a permille, and one whose permille is outside `0..1000`. -/
theorem runSetduty_of_refused (hp : present s i = true) {f : Word}
    (h : ∀ p, dutyConv s.straps.dutyMul f = some p → p < 0 ∨ 1000 < p) : runSetduty i f s = (.outOfRange, s) := by
  rw [runSetduty, hp]
  cases hf : dutyConv s.straps.dutyMul f with
  | none => rfl
  | some p => exact if_pos (h p hf)

theorem runSetduty_of_converted (hp : present s i = true) {f : Word} {p : ℤ}
    (hf : dutyConv s.straps.dutyMul f = some p) : runSetduty i f s = applyDuty i p s := by
  rw [runSetduty, hp, hf]
  rfl

theorem applyDuty_of_eq {p : ℕ} (h : p ≤ 1000) (heq : (descAt s i).duty.toNat = p) :
    applyDuty i p s = (.skip, s) := by
  obtain ⟨hbad, -⟩ | ⟨-, -, happly⟩ | ⟨-, hne, -⟩ := applyDuty_cases i p s
  · omega
  · exact happly
  · exact absurd (congrArg _ heq.symm) hne

theorem applyDuty_of_ne {p : ℕ} (h : p ≤ 1000) (hne : (descAt s i).duty.toNat ≠ p) :
    applyDuty i p s = (.ok, emitAll
      [.wrCompare (descAt s i).tmr (descAt s i).ch (compareValue p (shadowAt s (descAt s i).tmr)), .barrier]
      (modDesc i (withDuty (BitVec.ofNat 10 p)) s)) := by
  obtain ⟨hbad, -⟩ | ⟨-, heq, -⟩ | ⟨-, -, happly⟩ := applyDuty_cases i p s
  · omega
  · omega
  · rwa [Int.toNat_natCast, BitVec.ofInt_natCast] at happly

/-- SETDUTY of a present descriptor reports OUT_OF_RANGE exactly where it refuses the operand. -/
theorem runSetduty_outOfRange_iff (hp : present s i = true) (f : Word) : (runSetduty i f s).1 = .outOfRange ↔
    ∀ p, dutyConv s.straps.dutyMul f = some p → p < 0 ∨ 1000 < p := by
  refine ⟨fun hcode p hf => ?_, fun h => by rw [runSetduty_of_refused hp h]⟩
  rw [runSetduty_of_converted hp hf] at hcode
  obtain ⟨hbad, -⟩ | ⟨-, -, happly⟩ | ⟨-, -, happly⟩ := applyDuty_cases i p s
  · exact hbad
  · rw [happly] at hcode
    cases hcode
  · rw [happly] at hcode
    cases hcode

end Sys2Proof.Machine

namespace Sys2Proof.Claims

open Sys2Proof.Machine

/-- Settles O31. -/
theorem setperRule : Obligations.SetperRule := by
  intro s i v
  refine ⟨fieldsOf_encode _, fun hp => exec_of_absent rfl hp (by simp [opOf]), fun hp r hr => ?_⟩
  rw [exec_eq_finish, runOf, runSetper_of_present hp, changePeriod_eq_fanOut hr]
  rfl

/-- Settles O32. -/
theorem setdutyRule : Obligations.SetdutyRule := by
  intro s i f
  refine ⟨fieldsOf_encode _, fun hp => exec_of_absent rfl hp (by simp [opOf]),
    fun hp hbad => exec_of_runOf_untouched (runSetduty_of_refused hp hbad),
    fun p hp hf hle => ⟨fun heq => ?_, fun hne => ?_⟩⟩
  · exact exec_of_runOf_untouched ((runSetduty_of_converted hp hf).trans (applyDuty_of_eq hle heq))
  · rw [exec_eq_finish, runOf, runSetduty_of_converted hp hf, applyDuty_of_ne hle hne]
    rfl

/-- Settles O33: SETFREQ and SETPER of the converted period run the same change of period. -/
theorem setfreqRule : Obligations.SetfreqRule := by
  intro s i v
  refine ⟨fieldsOf_encode _, fun hp => exec_of_absent rfl hp (by simp [opOf]),
    fun hp hv => exec_of_runOf_untouched (runSetfreq_of_lt hp hv), fun hp hv p r hpv hr => ⟨?_, ?_⟩⟩
  · rw [exec_eq_finish, runOf, runSetfreq_of_le hp hv hpv, changePeriod_eq_fanOut hr]
    rfl
  · rw [exec_eq_finish, exec_eq_finish, runOf, runOf, runSetfreq_of_le hp hv hpv, runSetper_of_present hp]
    exact ⟨_, rfl, rfl⟩

end Sys2Proof.Claims
end

/-! ### The timers a command reaches -/

section
namespace Sys2Proof.Machine

open Sys2Proof.Claims

theorem timerOf?_of_mem_fanOut {s : State} {t u : TimerIndex} {r : Word} {e : Event} (h : e ∈ fanOut s t r)
    (hu : timerOf? e = some u) : u = t := by
  obtain rfl | rfl | ⟨j, -, rfl⟩ | rfl | rfl := mem_fanOut.1 h <;> cases hu <;> rfl

/-- A command's events address the timer of the descriptor it names. -/
theorem timerOf?_of_mem_eventsOnOk {s : State} {i : Instr} {d : DescIndex} (hd : descOf? i = some d) {e : Event}
    (h : e ∈ eventsOnOk s i) {u : TimerIndex} (hu : timerOf? e = some u) : u = (descAt s d).tmr := by
  cases i with
  | rdeng => cases hd
  | config | rddesc => cases h
  | init | deinit | stop =>
    cases hd
    obtain rfl := List.mem_singleton.1 h
    exact (Option.some.inj hu).symm
  | setper | setfreq =>
    cases hd
    exact timerOf?_of_mem_fanOut h hu
  | setduty =>
    cases hd
    simp only [eventsOnOk, List.mem_cons, List.not_mem_nil, or_false] at h
    obtain rfl | rfl := h <;> cases hu
    rfl
  | start =>
    cases hd
    simp only [eventsOnOk, List.mem_cons, List.mem_append, List.not_mem_nil, or_false] at h
    obtain rfl | h | rfl := h
    · exact (Option.some.inj hu).symm
    · exact timerOf?_of_mem_fanOut h hu
    · exact (Option.some.inj hu).symm

/-- Only the shadow of its own descriptor's timer is a command's to write. -/
theorem CommandEffect.shadowAt_of_ne {s t : State} {i : Instr} (he : CommandEffect s i t) {d : DescIndex}
    (hd : descOf? i = some d) {u : TimerIndex} (hu : u ≠ (descAt s d).tmr) : shadowAt t u = shadowAt s u := by
  cases he with
  | start | setper | setfreq =>
    cases hd
    simp [changePeriod_eq, hu.symm]
  | _ => rfl

end Sys2Proof.Machine

namespace Sys2Proof.Claims

open Sys2Proof.Machine

/-- Settles O46. -/
theorem otherTimersAreUntouched : Obligations.OtherTimersAreUntouched := by
  intro i s t d hx hd
  obtain ⟨c, -, rfl, hev⟩ | ⟨u, he, rfl, hev⟩ := exec_newEvents hx <;> rw [hev]
  · exact ⟨fun e h => absurd h List.not_mem_nil, fun _ _ => rfl⟩
  · exact ⟨fun e h _ hu => timerOf?_of_mem_eventsOnOk hd h hu, fun _ hu => he.shadowAt_of_ne hd hu⟩

end Sys2Proof.Claims
end

/-! ### Timers and engine after every command -/

section
namespace Sys2Proof.Machine

open Sys2Proof.Claims

/-- Timers consistent with the engine are so after any command, whatever its code. -/
theorem consistent_of_exec {hook : HookEffect} {i : Instr} {s t : State} {P : Platform} (h : s.Inv)
    (hd : ChannelsDistinct s) (hlen : P.timers.length = s.nTimer) (hk : HooksKeepRegisters hook i)
    (hc : Consistent s P.timers) (hx : exec i s = .next t) :
    Consistent t (performAll hook s.straps.timerWidth (newEvents s t) P).timers := by
  obtain ⟨c, -, rfl, hev⟩ | ⟨u, he, rfl, hev⟩ := exec_newEvents hx <;> rw [hev]
  · exact hc
  · exact he.consistent h hd hlen hk hc

/-- Where reload and sentinel fit 32 bits and the timer, the timer cuts neither the reload nor the compare value. -/
theorem SlotConsistent.whole {s : State} {T : List TimerRegs} {j : DescIndex} (h : SlotConsistent s T j)
    (hduty : (descAt s j).duty.toNat ≤ 1000) {v cs : ℕ} (hfits : ReloadFits s.straps.timerWidth v cs)
    (hshadow : (shadowAt s (descAt s j).tmr).toNat = 2 + v * cs) :
    ∃ R, T[(descAt s j).tmr.toNat]? = some R ∧ R.reload.toNat = 2 + v * cs ∧
      ∃ c, readCmp (descAt s j).ch R = some c ∧
        c = compareValue (descAt s j).duty.toNat (shadowAt s (descAt s j).tmr) ∧ c.toNat ≤ 2 + v * cs + 100 := by
  obtain ⟨R, hR, hreload, hcmp⟩ := h
  obtain ⟨-, hwidth⟩ := hfits
  have hle := toNat_compareValue_le hduty (shadowAt s (descAt s j).tmr)
  rw [truncTimer_of_lt (by omega)] at hreload hcmp
  exact ⟨R, hR, hreload ▸ hshadow, _, hcmp, rfl, hshadow ▸ hle⟩

end Sys2Proof.Machine

namespace Sys2Proof.Claims

open Sys2Proof.Machine

/-- Settles O52: the whole values follow from consistency after the command, because no compare is more than 100 above
its reload. -/
theorem commandsKeepTimersConsistent : Obligations.CommandsKeepTimersConsistent := by
  intro hook i s t P h hd hlen hk hc hx
  have hafter := consistent_of_exec h hd hlen hk hc hx
  have hinv : t.Inv := inv_of_exec h hx
  refine ⟨hafter, fun j hj ha v cs hfits hshadow => ?_⟩
  have hduty := duty_le_of_present hinv.2.1 (present_of_mem_regList hinv hj)
  exact SlotConsistent.whole (hafter j hj ha) hduty hfits hshadow

end Sys2Proof.Claims
end

/-! ### The duty operand -/

section
namespace Sys2Proof.Machine

open Sys2Proof.Claims

/-- The binary32 value of a finite pattern is its sign times its magnitude in units of `2^-149` (00_scope.md R16). -/
theorem f32Value_eq (f : Word) : f32Value f = f32SignFactor f * (f32Magnitude f / 2 ^ 149) := by
  have hsign : |f32SignFactor f| = 1 := by
    rw [f32SignFactor]
    split <;> simp
  rw [← abs_f32Value, f32Value, abs_mul, hsign, one_mul, abs_of_nonneg (by split <;> positivity)]

/-- `round_half_away` is odd (00_scope.md R17). -/
theorem roundsHalfAway_neg {y : ℚ} {p : ℤ} (h : RoundsHalfAway y p) : RoundsHalfAway (-y) (-p) := by
  have hdist : |((-p : ℤ) : ℚ) - -y| = |(p : ℚ) - y| := by rw [Int.cast_neg, neg_sub_neg, abs_sub_comm]
  rwa [RoundsHalfAway, hdist, abs_neg, Int.cast_neg, abs_neg]

/-- The rounded magnitude lies above `y - 1/2` and up to `y + 1/2`, so a tie goes up. -/
theorem roundsHalfAway_magnitude (num : ℕ) {den : ℕ} (hden : 0 < den) :
    RoundsHalfAway ((num : ℚ) / den) (roundHalfAway num den) := by
  have hpos : (0 : ℚ) < den := Nat.cast_pos.2 hden
  have hlo : 2 * den * roundHalfAway num den ≤ 2 * num + den := Nat.mul_div_le _ _
  have hhi : 2 * num + den < 2 * den * (roundHalfAway num den + 1) := Nat.lt_mul_div_succ _ (by omega)
  generalize roundHalfAway num den = p at hlo hhi ⊢
  qify at hlo hhi
  have hnum : (num : ℚ) = num / den * den := (div_mul_cancel₀ _ hpos.ne').symm
  have hnonneg : (0 : ℚ) ≤ num / den := by positivity
  generalize (num : ℚ) / den = y at hnum hnonneg ⊢
  have hbelow : y - 1 / 2 < p := by
    refine lt_of_mul_lt_mul_right ?_ hpos.le
    linarith
  have habove : (p : ℚ) ≤ y + 1 / 2 := by
    refine le_of_mul_le_mul_right ?_ hpos
    linarith
  rw [RoundsHalfAway, Int.cast_natCast]
  refine ⟨abs_le.2 ⟨by linarith, by linarith⟩, fun htie => ?_⟩
  obtain h | h := (abs_eq (by norm_num)).1 htie
  · rw [abs_of_nonneg hnonneg, abs_of_nonneg (by positivity)]
    linarith
  · linarith

/-- Rounding half away from zero on the magnitude, and putting the sign back, rounds the signed number. -/
theorem roundsHalfAway_signed (f : Word) (num : ℕ) {den : ℕ} (hden : 0 < den) :
    RoundsHalfAway (f32SignFactor f * ((num : ℚ) / den)) (signed (f32Sign f) (roundHalfAway num den)) := by
  have hmagnitude := roundsHalfAway_magnitude num hden
  rw [f32SignFactor, signed, f32Sign]
  cases f.getLsbD 31 with
  | false => simpa using hmagnitude
  | true => simpa using roundsHalfAway_neg hmagnitude

theorem f32Finite_iff (f : Word) : F32Finite f ↔ f32Exp f ≠ 0xFF := by rw [F32Finite, f32Exp_eq]

theorem dutyConv_of_not_finite {f : Word} (h : ¬ F32Finite f) (mul : Config.DutyMul) : dutyConv mul f = none :=
  if_pos (by rwa [f32Finite_iff, not_not] at h)

/-- The permille of a pattern's magnitude under EXACT. -/
def magnitudePermille (f : Word) : ℕ := roundHalfAway (10 * f32Magnitude f) f32One

theorem dutyConv_exact {f : Word} (h : F32Finite f) :
    dutyConv .exact f = some (signed (f32Sign f) (magnitudePermille f)) :=
  if_neg ((f32Finite_iff f).1 h)

theorem dutyConv_binary32 {f : Word} (h : F32Finite f) : dutyConv .binary32 f =
    (rne32 (10 * f32Magnitude f) 1).map fun y => signed (f32Sign f) (roundHalfAway y f32One) := by
  rw [dutyConv, if_neg ((f32Finite_iff f).1 h)]
  cases rne32 (10 * f32Magnitude f) 1 <;> rfl

end Sys2Proof.Machine

namespace Sys2Proof.Claims

open Sys2Proof.Machine

/-- Settles O20: the permille is rounded on the magnitude, which counts units of `2^-149`. -/
theorem exactDutyIsNearestPermille : Obligations.ExactDutyIsNearestPermille := by
  refine fun f => ⟨fun h => dutyConv_of_not_finite h _, fun h => ⟨_, dutyConv_exact h, ?_⟩⟩
  have hround := roundsHalfAway_signed f (10 * f32Magnitude f) (den := f32One) (by decide)
  have hvalue : 10 * f32Value f = f32SignFactor f * ((10 * f32Magnitude f : ℕ) / (f32One : ℕ)) := by
    rw [f32Value_eq, f32One]
    push_cast
    ring
  rw [hvalue]
  exact hround

/-- Settles O21. -/
theorem binary32DutyRoundsTwice : Obligations.Binary32DutyRoundsTwice := by
  refine ⟨fun f h => dutyConv_of_not_finite h _, fun f h => ⟨f32Magnitude f, ?_, ?_, fun y hy => ?_⟩, by decide,
    by decide⟩
  · rw [abs_f32Value, div_mul_cancel₀ _ (by positivity)]
  · rw [dutyConv_binary32 h, Option.map_eq_none_iff]
  · refine ⟨_, by rw [dutyConv_binary32 h, hy, Option.map_some], ?_⟩
    have hround := roundsHalfAway_signed f y (den := f32One) (by decide)
    rw [show ((f32One : ℕ) : ℚ) = 2 ^ 149 by rw [f32One]; norm_cast] at hround
    exact hround

end Sys2Proof.Claims
end

/-! ### The nearest binary32 magnitude, ties to even -/

section
namespace Sys2Proof.Machine

open Sys2Proof.Claims

/-- The distance of two magnitudes is that of the integers they are. -/
theorem natCast_gap (a b : ℕ) : (gap a b : ℤ) = |(a : ℤ) - b| := by
  rw [gap]
  obtain h | h := le_total a b
  · rw [abs_of_nonpos (by omega)]
    omega
  · rw [abs_of_nonneg (by omega)]
    omega

theorem gap_mul_right (a b c : ℕ) : gap (a * c) (b * c) = gap a b * c := by
  rw [gap, gap, add_mul, Nat.sub_mul, Nat.sub_mul]

/-- Two different magnitudes as near to `x` lie on either side of it. -/
theorem gap_eq_two_mul_of_tie {x a b : ℕ} (hne : b ≠ a) (h : gap x a = gap x b) : gap a b = 2 * gap x a := by
  simp only [gap] at h ⊢
  omega

namespace RoundsTo

variable {num den m k : ℕ}

/-- A rounded number below the overflow threshold is on the binary32 grid. -/
theorem onF32Grid (h : RoundsTo num den m k) (hden : 0 < den) (hnum : num < (2 ^ 128 - 2 ^ 103) * f32One * den) :
    OnF32Grid (m * 2 ^ k) := by
  have hfinite := h.pattern_lt hnum
  have hnormal := h.two_pow_le hden
  obtain hlt | rfl := lt_or_eq_of_le h.significand_le
  · exact ⟨m, k, hlt, by omega, rfl⟩
  · exact ⟨2 ^ 23, k + 1, by omega, by omega, by ring⟩

/-- A magnitude of the grid that is as near as the rounded number is a multiple of its unit: those that are not lie
below the numbers the unit is used for. -/
theorem multiple_of_tie (h : RoundsTo num den m k) (hden : 0 < den) {z : ℕ} (hz : OnF32Grid z)
    (htie : gap num (m * 2 ^ k * den) = gap num (z * den)) : ∃ c, z = c * 2 ^ k := by
  refine (grid_cases hz k).resolve_right fun ⟨hk, hlow⟩ => ?_
  have hnormal := h.normal hk
  have hbelow := Nat.mul_lt_mul_of_pos_right hlow hden
  rw [mul_assoc, mul_comm (2 ^ k)] at hbelow
  obtain ⟨hle, -⟩ := h.near_multiple (2 ^ 23)
  rw [← natCast_gap, ← natCast_gap, Nat.cast_le, mul_comm den, ← mul_assoc m, htie] at hle
  simp only [gap, mul_comm (2 ^ k) den] at hle
  omega

/-- On a tie the other magnitude is one unit away. -/
theorem gap_of_tie (h : RoundsTo num den m k) (hden : 0 < den) {z : ℕ} (hz : OnF32Grid z) (hne : z ≠ m * 2 ^ k)
    (htie : gap num (m * 2 ^ k * den) = gap num (z * den)) : gap (m * 2 ^ k) z = 2 ^ k := by
  obtain ⟨c, rfl⟩ := h.multiple_of_tie hden hz htie
  have hsides := gap_eq_two_mul_of_tie (fun heq => hne (Nat.eq_of_mul_eq_mul_right hden heq)) htie
  have hnear := h.near
  rw [← natCast_gap, ← Nat.cast_ofNat, ← Nat.cast_mul, Nat.cast_le, mul_comm den, ← mul_assoc m, ← hsides,
    gap_mul_right, gap_mul_right, mul_assoc] at hnear
  have hle : gap m c ≤ 1 := Nat.le_of_mul_le_mul_right (by rwa [one_mul]) (show 0 < 2 ^ k * den by positivity)
  have hcm : c ≠ m := fun heq => hne (by rw [heq])
  have hone : gap m c = 1 := by
    rw [gap] at hle ⊢
    omega
  rw [gap_mul_right, hone, one_mul]

end RoundsTo

end Sys2Proof.Machine

namespace Sys2Proof.Claims

open Sys2Proof.Machine

/-- Settles O22. -/
theorem rne32IsNearestEven : Obligations.Rne32IsNearestEven := by
  refine fun x den hden => ⟨rne32_eq_none_iff, fun y hy => ?_⟩
  obtain ⟨hlt, m, k, rfl, hround⟩ := roundsTo_of_rne32 hden hy
  refine ⟨hround.onF32Grid hden hlt, fun z hz => ?_, fun z hz hne htie => ?_⟩
  · obtain ⟨hle, -⟩ := hround.nearest hden hz
    rwa [← natCast_gap, ← natCast_gap, Nat.cast_le] at hle
  · obtain ⟨-, heven⟩ := hround.nearest hden hz
    rw [← natCast_gap, ← natCast_gap, Nat.cast_inj] at heven
    rw [hround.gap_of_tie hden hz hne htie, Nat.mul_mod_mul_right, heven htie hne, Nat.zero_mul]

end Sys2Proof.Claims
end

/-! ### The ranges of duty operands -/

section
namespace Sys2Proof.Machine

open Sys2Proof.Claims

/-! #### Larger patterns have larger magnitudes -/

theorem f32Magnitude_lt (f : Word) : f32Magnitude f < 2 ^ 23 * 2 ^ f32Exp f := by
  have hfrac := f32Frac_eq f
  rw [f32Magnitude]
  split
  next he =>
    rw [he]
    omega
  next he =>
    obtain ⟨e, he⟩ := Nat.exists_eq_succ_of_ne_zero he
    rw [he, Nat.succ_sub_one, pow_succ' 2 e, ← mul_assoc]
    exact Nat.mul_lt_mul_of_pos_right (by omega) (by positivity)

theorem le_f32Magnitude {f : Word} {e : ℕ} (h : f32Exp f = e + 1) : 2 ^ 23 * 2 ^ e ≤ f32Magnitude f := by
  rw [f32Magnitude, if_neg (by omega), h, Nat.add_sub_cancel]
  exact Nat.mul_le_mul_right _ (Nat.le_add_right _ _)

theorem f32Magnitude_mono {f g : Word} (h : f.toNat % 2 ^ 31 ≤ g.toNat % 2 ^ 31) :
    f32Magnitude f ≤ f32Magnitude g := by
  have hf := f32Exp_eq f
  have hg := f32Exp_eq g
  obtain hlt | heq | hgt := lt_trichotomy (f32Exp f) (f32Exp g)
  · obtain ⟨e, he⟩ := Nat.exists_eq_succ_of_ne_zero (Nat.ne_zero_of_lt hlt)
    calc f32Magnitude f ≤ 2 ^ 23 * 2 ^ f32Exp f := (f32Magnitude_lt f).le
      _ ≤ 2 ^ 23 * 2 ^ e := Nat.mul_le_mul_left _ (Nat.pow_le_pow_right two_pos (by omega))
      _ ≤ f32Magnitude g := le_f32Magnitude he
  · have hfrac : f32Frac f ≤ f32Frac g := by
      rw [f32Frac_eq, f32Frac_eq]
      omega
    rw [f32Magnitude, f32Magnitude, heq]
    split
    · exact hfrac
    · exact Nat.mul_le_mul_right _ (Nat.add_le_add_left hfrac _)
  · omega

theorem magnitudePermille_mono {f g : Word} (h : f.toNat % 2 ^ 31 ≤ g.toNat % 2 ^ 31) :
    magnitudePermille f ≤ magnitudePermille g := by
  have hmagnitude := f32Magnitude_mono h
  rw [magnitudePermille, magnitudePermille, roundHalfAway, roundHalfAway]
  gcongr

/-! #### The permille of a pattern, by its place -/

theorem f32Finite_iff_lt (f : Word) : F32Finite f ↔ f.toNat % 2 ^ 31 < 0x7F800000 := by
  rw [F32Finite]
  omega

theorem f32Sign_eq (f : Word) : f32Sign f = decide (2 ^ 31 ≤ f.toNat) := BitVec.msb_eq_decide f

theorem signed_false (m : ℕ) : signed false m = m := rfl

theorem signed_true (m : ℕ) : signed true m = -m := rfl

theorem dutyConv_exact_of_nonneg {f : Word} (h : f.toNat < 0x7F800000) :
    dutyConv .exact f = some (magnitudePermille f : ℤ) := by
  rw [dutyConv_exact ((f32Finite_iff_lt f).2 (by omega)), f32Sign_eq, decide_eq_false (by omega), signed_false]

theorem dutyConv_exact_of_neg {f : Word} (hlo : 0x80000000 ≤ f.toNat) (hhi : f.toNat < 0xFF800000) :
    dutyConv .exact f = some (-(magnitudePermille f : ℤ)) := by
  rw [dutyConv_exact ((f32Finite_iff_lt f).2 (by omega)), f32Sign_eq, decide_eq_true (by omega), signed_true]

/-- Where one pattern still gives `n` permille and the next one more, exactly the patterns up to it give at most `n`. -/
theorem magnitudePermille_le_iff {last next : Word} {n : ℕ} (hlast : magnitudePermille last = n)
    (hnext : n < magnitudePermille next) (hstep : next.toNat % 2 ^ 31 = last.toNat % 2 ^ 31 + 1) (f : Word) :
    magnitudePermille f ≤ n ↔ f.toNat % 2 ^ 31 ≤ last.toNat % 2 ^ 31 := by
  refine ⟨fun h => ?_, fun h => hlast ▸ magnitudePermille_mono h⟩
  by_contra hgt
  have hmono : magnitudePermille next ≤ magnitudePermille f := magnitudePermille_mono (by omega)
  omega

/-- The last pattern that rounds to 1000 permille (42_period_duty.md R115). -/
theorem magnitudePermille_le_full (f : Word) : magnitudePermille f ≤ 1000 ↔ f.toNat % 2 ^ 31 ≤ 0x42C81999 :=
  magnitudePermille_le_iff (last := 0x42C81999) (next := 0x42C8199A) (by decide) (by decide) (by decide) f

/-- The last pattern that rounds to 0 permille (42_period_duty.md R115). -/
theorem magnitudePermille_eq_zero (f : Word) : magnitudePermille f = 0 ↔ f.toNat % 2 ^ 31 ≤ 0x3D4CCCCC :=
  Nat.le_zero.symm.trans
    (magnitudePermille_le_iff (last := 0x3D4CCCCC) (next := 0x3D4CCCCD) (by decide) (by decide) (by decide) f)

/-- The operands that SETDUTY refuses under EXACT are those outside the two accepted ranges. -/
theorem dutyConv_exact_refused_iff (f : Word) : (∀ p, dutyConv .exact f = some p → p < 0 ∨ 1000 < p) ↔
    ¬ (f.toNat ≤ 0x42C81999 ∨ (0x80000000 ≤ f.toNat ∧ f.toNat ≤ 0xBD4CCCCC)) := by
  have hfull := magnitudePermille_le_full f
  have hzero := magnitudePermille_eq_zero f
  have hlt := f.isLt
  by_cases hfinite : F32Finite f
  · rw [f32Finite_iff_lt] at hfinite
    obtain hpos | hneg := lt_or_ge f.toNat 0x80000000
    · simp only [dutyConv_exact_of_nonneg (show f.toNat < 0x7F800000 by omega), Option.some.injEq, forall_eq']
      omega
    · simp only [dutyConv_exact_of_neg hneg (by omega), Option.some.injEq, forall_eq']
      omega
  · simp only [dutyConv_of_not_finite hfinite, reduceCtorEq, false_implies, implies_true, true_iff]
    rw [f32Finite_iff_lt] at hfinite
    omega

end Sys2Proof.Machine

namespace Sys2Proof.Claims

open Sys2Proof.Machine

/-- Settles O23: the permille grows with the pattern, so its value on either side of each boundary decides the
ranges. -/
theorem dutyOperandRanges : Obligations.DutyOperandRanges := by
  intro f
  have hlt := f.isLt
  have hfull := magnitudePermille_le_full f
  have hzero := magnitudePermille_eq_zero f
  have hnone (h : 0x7F800000 ≤ f.toNat % 2 ^ 31) : dutyConv .exact f = none :=
    dutyConv_of_not_finite (by rwa [f32Finite_iff_lt, not_lt]) _
  refine ⟨fun h => ⟨_, dutyConv_exact_of_nonneg (by omega), by omega⟩,
    fun hlo hhi => ⟨_, dutyConv_exact_of_nonneg (by omega), by omega⟩, fun hlo hhi => hnone (by omega),
    fun hlo hhi => ?_, fun hlo hhi => ⟨_, dutyConv_exact_of_neg (by omega) (by omega), by omega⟩,
    fun hlo => hnone (by omega), fun s i hp hmul => ⟨_, exec_eq_finish _ _, ?_⟩⟩
  · rw [dutyConv_exact_of_neg hlo (by omega), hzero.2 (by omega)]
    rfl
  · rw [← dutyConv_exact_refused_iff, ← hmul]
    exact runSetduty_outOfRange_iff hp f

end Sys2Proof.Claims
end

/-! PROOFS of the family 43_readback.md: the value each selector reads, then what RDDESC and RDENG answer, and what the
answers determine. -/

section
namespace Sys2Proof.Machine

open Sys2Proof.Claims

/-! ### Parts of a word -/

theorem toNat_append_eq_add {m n : ℕ} (a : BitVec m) (b : BitVec n) :
    (a ++ b).toNat = a.toNat * 2 ^ n + b.toNat := by
  rw [BitVec.toNat_append, ← Nat.shiftLeft_add_eq_or_of_lt b.isLt, Nat.shiftLeft_eq]

theorem eq_of_toNat_bool_eq : ∀ {a b : Bool}, a.toNat = b.toNat → a = b := by decide

theorem eq_of_setWidth_eq {m n : ℕ} (h : n ≤ m) {x y : BitVec n} (heq : x.setWidth m = y.setWidth m) : x = y :=
  BitVec.eq_of_toNat_eq (by rw [← BitVec.toNat_setWidth_of_le h, heq, BitVec.toNat_setWidth_of_le h])

/-! ### The selectors -/

/-- The bits of the descriptor word as a number (43_readback.md R120). -/
theorem toNat_descWord (s : State) (i : DescIndex) : (descWord s i).toNat =
    (stateBit (descAt s i).state).toNat + (descAt s i).cfg.toNat * 2 + (registered s i).toNat * 4 +
      (descAt s i).ch.toNat * 2 ^ 8 + (descAt s i).tmr.toNat * 2 ^ 16 := by
  simp only [descWord, toNat_append_eq_add, BitVec.toNat_ofBool, BitVec.ofNat_eq_ofNat, BitVec.toNat_zero]
  omega

theorem toNat_stateBit (c : ChanState) : (stateBit c).toNat = if c = .active then 1 else 0 := by
  cases c <;> rfl

theorem stateBit_inj {c c' : ChanState} : stateBit c = stateBit c' ↔ c = c' := by
  cases c <;> cases c' <;> simp [stateBit]

theorem descField_of_four_lt {s : State} {i : DescIndex} {x : Word} (h : 4 < x.toNat) : descField s i x = none := by
  unfold descField
  split
  case h_6 => rfl
  all_goals omega

/-- The five selectors of RDDESC (43_readback.md R119). -/
theorem descSelector_cases {x : Word} (h : x.toNat ≤ 4) : x = 0 ∨ x = 1 ∨ x = 2 ∨ x = 3 ∨ x = 4 := by
  simp only [← BitVec.toNat_inj, BitVec.reduceToNat]
  omega

theorem engineField_slot {s : State} {x : Word} {k : ℕ} (hk : k < 16) (hx : x.toNat = 0x100 + k) :
    engineField s x = some (regPosition s k) := by
  simp only [engineField]
  rw [if_neg (by omega), if_pos (by omega), hx, Nat.add_sub_cancel_left]

theorem engineField_shadow {s : State} {x : Word} {t : ℕ} (ht : t < s.nTimer) (hx : x.toNat = 0x200 + t) :
    engineField s x = some s.shadow[t] := by
  simp only [engineField]
  rw [if_neg (by omega), if_neg (by omega), if_pos (by omega), hx, Nat.add_sub_cancel_left, List.getD_eq_getElem]

theorem engineField_of_bad {s : State} {x : Word} (h : BadArgument (.rdeng x) s) : engineField s x = none := by
  obtain ⟨hcount, hslot, hshadow⟩ := h
  simp only [engineField]
  rw [if_neg hcount, if_neg hslot, if_neg hshadow]

theorem regPosition_of_lt {s : State} {k : ℕ} (hk : k < 16) (h : k < s.regCount.toNat) :
    (regPosition s k).toNat = s.regSlot[k].toNat := by
  have hlen : k < s.regSlot.toList.length := by simpa using hk
  rw [regPosition, if_pos h, List.getD_eq_getElem _ _ hlen, Vector.getElem_toList]
  exact BitVec.toNat_setWidth_of_le (by decide)

theorem regPosition_of_le {s : State} {k : ℕ} (h : s.regCount.toNat ≤ k) : regPosition s k = 0xFFFFFFFF :=
  if_neg (not_lt.2 h)

/-! ### The value a readback reads -/

/-- What a readback command reads, none where it is refused; none for the other commands. -/
def readbackValue (s : State) : Instr → Option Word
  | .rddesc i x => if s.nDesc ≤ i.toNat then none else descField s i x
  | .rdeng x => engineField s x
  | .config _ _ _ _ | .init _ _ | .deinit _ _ | .start _ _ | .stop _ _ | .setper _ _ | .setduty _ _ | .setfreq _ _ =>
    none

theorem readbackValue_rddesc {s : State} {i : DescIndex} (h : i.toNat < s.nDesc) (x : Word) :
    readbackValue s (.rddesc i x) = descField s i x := if_neg (not_le.2 h)

/-- RDATA and STATUS are never read back (43_readback.md R123). -/
theorem readbackValue_congr (s : State) (r : Word) (c : Code) (op : BitVec 4) (i : Instr) :
    readbackValue { s with rdata := r, code := c, lastOp := op } i = readbackValue s i := by
  cases i <;> rfl

/-- A bad index or selector reads nothing (43_readback.md R119, R121). -/
theorem readbackValue_of_bad {s : State} {i : Instr} (h : BadArgument i s) : readbackValue s i = none := by
  cases i with
  | rddesc i x =>
    obtain hi | hx := h
    · exact if_pos hi
    · rw [readbackValue, descField_of_four_lt hx, ite_self]
  | rdeng x => exact engineField_of_bad h
  | _ => rfl

/-- A readback ends by what it reads: INVALID_ARGUMENT with the state untouched, or OK with the value in RDATA. -/
theorem runOf_readback {i : Instr} (hi : opOf i = 0x9 ∨ opOf i = 0xA) (s : State) :
    runOf i s = (readbackValue s i).elim (.invalidArgument, s) fun r => (.ok, setRdata r s) := by
  cases i with
  | rddesc d x =>
    by_cases hd : s.nDesc ≤ d.toNat
    · rw [runOf, runRddesc, if_pos hd, readbackValue, if_pos hd]
      rfl
    · rw [runOf, runRddesc, if_neg hd, readbackValue, if_neg hd]
      cases descField s d x <;> rfl
  | rdeng x =>
    rw [runOf, runRdeng, readbackValue]
    cases engineField s x <;> rfl
  | _ => simp [opOf] at hi

theorem exec_readback_of_none {i : Instr} {s : State} (hi : opOf i = 0x9 ∨ opOf i = 0xA)
    (h : readbackValue s i = none) : exec i s = .next (statusOnly s .invalidArgument (opOf i)) :=
  exec_of_runOf_untouched (by rw [runOf_readback hi, h, Option.elim_none])

theorem exec_readback_of_some {i : Instr} {s : State} {r : Word} (hi : opOf i = 0x9 ∨ opOf i = 0xA)
    (h : readbackValue s i = some r) :
    exec i s = .next { s with rdata := r, code := .ok, lastOp := opOf i } := by
  rw [exec_eq_finish, runOf_readback hi, h]
  rfl

/-- A readback answers the value it reads, so its answer gives the value back. -/
theorem readbackValue_eq_of_answerOf {i : Instr} (hi : opOf i = 0x9 ∨ opOf i = 0xA) (s : State) :
    readbackValue s i = (answerOf i s).bind Prod.snd := by
  cases h : readbackValue s i with
  | none =>
    rw [answerOf, exec_readback_of_none hi h]
    rfl
  | some r =>
    rw [answerOf, exec_readback_of_some hi h]
    rfl

theorem readbackValue_eq_of_answers_eq {i : Instr} {s t : State} (hi : opOf i = 0x9 ∨ opOf i = 0xA)
    (h : answerOf i s = answerOf i t) : readbackValue s i = readbackValue t i := by
  rw [readbackValue_eq_of_answerOf hi, h, ← readbackValue_eq_of_answerOf hi]

/-! ### Illegal words by their fields -/

/-- Fields that R73 and R74 refuse execute as an ILLEGAL_COMMAND of their OP (30_encoding.md R76). -/
theorem execute_packFields_of_not_wellFormed {f : Cmd64} (h : ¬ f.WellFormed) (s : State) :
    execute (packFields f) s = .next (statusOnly s .illegalCommand f.op) := by
  have hop : (packFields f).extractLsb' 60 4 = f.op := congrArg Cmd64.op (fieldsOf_packFields f)
  rw [execute_of_not_wellFormed (by rwa [fieldsOf_packFields]), hop]

/-! ### What the values read determine -/

variable {s t : State}

/-- The selectors 0 to 3 of RDDESC show every field of a slot (43_readback.md R119, R120). -/
theorem descAt_eq_of_descField {i : DescIndex} (h : ∀ x, descField s i x = descField t i x) :
    descAt s i = descAt t i := by
  have hword : descWord s i = descWord t i := Option.some.inj (h 0)
  have hduty : (descAt s i).duty.zeroExtend 32 = (descAt t i).duty.zeroExtend 32 := Option.some.inj (h 1)
  have hperiod : (descAt s i).period = (descAt t i).period := Option.some.inj (h 2)
  have hcs : (descAt s i).cs = (descAt t i).cs := Option.some.inj (h 3)
  have hnum := congrArg BitVec.toNat hword
  rw [toNat_descWord, toNat_descWord] at hnum
  have hbounds (u : State) : (stateBit (descAt u i).state).toNat < 2 ∧ (descAt u i).cfg.toNat ≤ 1 ∧
      (registered u i).toNat ≤ 1 ∧ (descAt u i).ch.toNat < 2 ^ 3 :=
    ⟨BitVec.isLt _, Bool.toNat_le _, Bool.toNat_le _, BitVec.isLt _⟩
  have hs := hbounds s
  have ht := hbounds t
  have hstate : (descAt s i).state = (descAt t i).state := stateBit_inj.1 (BitVec.eq_of_toNat_eq (by omega))
  have hcfg : (descAt s i).cfg = (descAt t i).cfg := eq_of_toNat_bool_eq (by omega)
  have hch : (descAt s i).ch = (descAt t i).ch := BitVec.eq_of_toNat_eq (by omega)
  have htmr : (descAt s i).tmr = (descAt t i).tmr := BitVec.eq_of_toNat_eq (by omega)
  have hduty : (descAt s i).duty = (descAt t i).duty := eq_of_setWidth_eq (by decide) hduty
  rw [Desc.mk.injEq]
  exact ⟨hch, htmr, hcfg, hcs, hperiod, hduty, hstate⟩

/-- A table is its slots, read through the descriptor index: an index addresses every slot of a legal table. -/
theorem desc_eq_of_descAt (hlegal : s.nDesc ≤ 255) (hn : s.nDesc = t.nDesc)
    (h : ∀ i : DescIndex, i.toNat < s.nDesc → descAt s i = descAt t i) : s.desc = t.desc := by
  refine List.ext_getElem hn fun k hs ht => ?_
  have hk : (BitVec.ofNat 8 k).toNat = k := toNat_ofNat_of_lt (lt_of_lt_of_le hs (hlegal.trans (by decide)))
  have heq := h (BitVec.ofNat 8 k) (by rwa [hk])
  rwa [descAt, descAt, hk, List.getD_eq_getElem _ _ hs, List.getD_eq_getElem _ _ ht] at heq

theorem regCount_eq_of_engineField (h : engineField s 0 = engineField t 0) : s.regCount = t.regCount := by
  have hcount : s.regCount.zeroExtend 32 = t.regCount.zeroExtend 32 := Option.some.inj h
  exact eq_of_setWidth_eq (by decide) hcount

theorem regPosition_eq_of_engineField (h : ∀ x, engineField s x = engineField t x) {k : ℕ} (hk : k < 16) :
    regPosition s k = regPosition t k := by
  have hx : (BitVec.ofNat 32 (0x100 + k)).toNat = 0x100 + k := toNat_ofNat_of_lt (by omega)
  have heq := h (BitVec.ofNat 32 (0x100 + k))
  rw [engineField_slot hk hx, engineField_slot hk hx] at heq
  exact Option.some.inj heq

/-- The positions from REG.count on hold 0 (10_state.md R31). -/
theorem regSlot_of_count_le (h : s.RegistryGood) {k : ℕ} (hk : k < 16) (hle : s.regCount.toNat ≤ k) :
    s.regSlot[k] = 0 := by
  obtain ⟨-, -, -, hzero⟩ := h
  refine hzero _ (List.mem_iff_getElem.2 ⟨k - s.regCount.toNat, ?_, ?_⟩)
  · simp only [List.length_drop, Vector.length_toList]
    omega
  · simp [hle]

/-- The positions that RDENG does not show hold 0 in a good registry. -/
theorem regSlot_eq_of_regPosition (hs : s.RegistryGood) (ht : t.RegistryGood) (hcount : s.regCount = t.regCount)
    (h : ∀ k < 16, regPosition s k = regPosition t k) : s.regSlot = t.regSlot := by
  refine Vector.ext fun k hk => ?_
  obtain hlt | hle := lt_or_ge k s.regCount.toNat
  · refine BitVec.eq_of_toNat_eq ?_
    rw [← regPosition_of_lt hk hlt, ← regPosition_of_lt hk (hcount ▸ hlt), h k hk]
  · rw [regSlot_of_count_le hs hk hle, regSlot_of_count_le ht hk (hcount ▸ hle)]

theorem shadow_eq_of_engineField (hlegal : s.nTimer ≤ 256) (hn : s.nTimer = t.nTimer)
    (h : ∀ x, engineField s x = engineField t x) : s.shadow = t.shadow := by
  refine List.ext_getElem hn fun k hs ht => ?_
  have hle : k < 256 := lt_of_lt_of_le hs hlegal
  have hk : (BitVec.ofNat 32 (0x200 + k)).toNat = 0x200 + k := toNat_ofNat_of_lt (by omega)
  have heq := h (BitVec.ofNat 32 (0x200 + k))
  rw [engineField_shadow hs hk, engineField_shadow ht hk] at heq
  exact Option.some.inj heq

end Sys2Proof.Machine
end

section
namespace Sys2Proof.Claims

open Sys2Proof.Machine

/-- Settles O34. -/
theorem rddescRule : Obligations.RddescRule := by
  intro s i x
  refine ⟨fieldsOf_encode _, fun hbad => exec_readback_of_none (.inl rfl) (readbackValue_of_bad hbad),
    fun hi hx => ?_⟩
  have hread (r : Word) (hr : descField s i x = some r) :=
    exec_readback_of_some (.inl rfl) ((readbackValue_rddesc hi x).trans hr)
  obtain rfl | rfl | rfl | rfl | rfl := descSelector_cases hx
  · refine ⟨descWord s i, hread _ rfl, fun _ => ?_, nofun, nofun, nofun, nofun⟩
    simp only [toNat_descWord, toNat_stateBit, Bool.toNat, Bool.cond_eq_ite, registered_iff, ite_mul, one_mul, zero_mul]
  · exact ⟨_, hread _ rfl, nofun, fun _ => BitVec.toNat_setWidth_of_le (by decide), nofun, nofun, nofun⟩
  · exact ⟨_, hread _ rfl, nofun, nofun, fun _ => rfl, nofun, nofun⟩
  · exact ⟨_, hread _ rfl, nofun, nofun, nofun, fun _ => rfl, nofun⟩
  · exact ⟨_, hread _ rfl, nofun, nofun, nofun, nofun, fun _ => rfl⟩

/-- Settles O35: the ranges of the selectors exclude each other. -/
theorem rdengRule : Obligations.RdengRule := by
  intro s x
  have hread (r : Word) (hr : engineField s x = some r) :
      exec (.rdeng x) s = .next { s with rdata := r, code := .ok, lastOp := 0xA } :=
    exec_readback_of_some (.inr rfl) hr
  refine ⟨fieldsOf_encode _, fun f hop hstray => ?_, fun hx => ?_, fun k hk hx => ?_,
    fun t ht hx => hread _ (engineField_shadow ht hx), fun hcount hslot hshadow =>
      exec_readback_of_none (.inr rfl) (readbackValue_of_bad ⟨hcount, hslot, hshadow⟩)⟩
  · have hill : ¬ f.WellFormed := by
      rintro ⟨-, -, htc, hdesc⟩
      obtain ⟨ht, hch⟩ := htc (by rw [hop]; decide)
      exact hstray.elim (· (hdesc hop)) (·.elim (· ht) (· hch))
    rw [execute_packFields_of_not_wellFormed hill, hop]
  · subst hx
    exact ⟨_, BitVec.toNat_setWidth_of_le (by decide), hread _ rfl⟩
  · exact ⟨_, regPosition_of_lt hk, regPosition_of_le, hread _ (engineField_slot hk hx)⟩

/-- Settles O47: a readback leaves alone everything it can read, so the second one reads the same. -/
theorem readbackIsPure : Obligations.ReadbackIsPure := by
  intro i s t hi h
  cases hr : readbackValue s i with
  | none =>
    rw [exec_readback_of_none hi hr] at h
    cases h
    exact ⟨rfl, Code.noConfusion, fun _ => rfl, _,
      exec_readback_of_none hi ((readbackValue_congr ..).trans hr), rfl, rfl⟩
  | some r =>
    rw [exec_readback_of_some hi hr] at h
    cases h
    exact ⟨rfl, Code.noConfusion, fun hne => absurd rfl hne, _,
      exec_readback_of_some hi ((readbackValue_congr ..).trans hr), rfl, rfl⟩

/-- Settles O48: equal answers are equal values read, some selector reads every field, save the registry positions from
REG.count on, which hold 0. -/
theorem readbackDeterminesState : Obligations.ReadbackDeterminesState := by
  intro s t hs ht hdesc htimer hrddesc hrdeng
  have ⟨⟨⟨_, hnDesc⟩, ⟨_, hnTimer⟩, _⟩, _⟩ := hs
  have hslot (i : DescIndex) (hi : i.toNat < s.nDesc) (x : Word) : descField s i x = descField t i x := by
    rw [← readbackValue_rddesc hi, ← readbackValue_rddesc (hdesc ▸ hi)]
    exact readbackValue_eq_of_answers_eq (.inl rfl) (hrddesc i x)
  have hengine (x : Word) : engineField s x = engineField t x :=
    readbackValue_eq_of_answers_eq (.inr rfl) (hrdeng x)
  have hcount := regCount_eq_of_engineField (hengine 0)
  exact ⟨desc_eq_of_descAt hnDesc hdesc fun i hi => descAt_eq_of_descField (hslot i hi),
    regSlot_eq_of_regPosition (registryGood_of_inv hs) (registryGood_of_inv ht) hcount
      (fun k hk => regPosition_eq_of_engineField hengine hk), hcount,
    shadow_eq_of_engineField hnTimer htimer hengine⟩

end Sys2Proof.Claims
end

/-! PROOFS of the family 60_exceptions.md: every step completes, each code but OK has its cause and writes STATUS only,
and the reference timer. -/

/-! ### Steps that complete, and moves the engine takes no part in -/

section
namespace Sys2Proof.Machine

/-- An access beside the window touches none of its bytes (20_memory.md R45). -/
theorem touchesWindow_eq_false {base addr n : ℕ} (h : base + 16 ≤ addr ∨ addr + n ≤ base) :
    touchesWindow base addr n = false := decide_eq_false (by omega)

theorem exec_completes (i : Instr) (s : State) : ∃ t, exec i s = .next t := ⟨_, exec_eq_finish i s⟩

/-- Legal or not, a word executes to a next state (30_encoding.md R75, R76). -/
theorem execute_completes (w : CmdWord) (s : State) : ∃ t, execute w s = .next t := by
  obtain ⟨i, -, hexec⟩ | ⟨e, -, hillegal⟩ := execute_cases w s
  · rw [hexec]
    exact exec_completes i s
  · exact ⟨_, hillegal⟩

theorem memWrite_completes (addr : ℕ) (lanes : List Byte) (s : State) : ∃ t, memWrite addr lanes s = .next t := by
  obtain ⟨r, hanswer⟩ | hoperand | hcommand := memWrite_cases addr lanes s
  · exact ⟨_, hanswer⟩
  · exact ⟨_, hoperand⟩
  · obtain ⟨t, ht⟩ := execute_completes (commandWord (wordOfLanes lanes) s.operand) (setCommand (wordOfLanes lanes) s)
    rw [hcommand, ht]
    exact ⟨_, rfl⟩

theorem takeInput_completes (x : Input) (s : State) : ∃ t, takeInput x s = .next t := by
  cases x with
  | write addr lanes => exact memWrite_completes addr lanes s
  | read addr n =>
    obtain ⟨r, hanswer⟩ := memRead_cases addr n s
    exact ⟨_, hanswer⟩
  | reset => exact ⟨_, rfl⟩

theorem step_completes (s : State) : ∃ t, step s = .next t := by
  cases hin : s.inputs with
  | nil => exact ⟨s, step_idle hin⟩
  | cons x rest =>
    rw [step_input hin]
    exact takeInput_completes x _

end Sys2Proof.Machine

namespace Sys2Proof.Claims

open Sys2Proof.Machine

/-- Settles O9: such an access touches no byte of the window, so it is answered before any register is looked up. -/
theorem idleAndUnselectedSteps : Obligations.IdleAndUnselectedSteps := by
  refine ⟨fun s => step_idle, fun s addr lanes h => ?_⟩
  have htouch := touchesWindow_eq_false h
  constructor
  · simp [memWrite, htouch, respond]
  · simp [memRead, htouch, respond]

/-- Settles O10. -/
theorem everyStepCompletes : Obligations.EveryStepCompletes := ⟨step_completes, exec_completes⟩

/-- Settles O39: the commands that name a descriptor, but CONFIG and RDDESC, test its presence first. -/
theorem absentDescriptorComesFirst : Obligations.AbsentDescriptorComesFirst := by
  refine ⟨fun i s d hd hp hconfig hrddesc => ?_, fun s d hp => exec_of_absent rfl hp (by simp [opOf])⟩
  cases i with
  | config _ t c v => cases hd; exact absurd rfl (hconfig t c v)
  | rddesc _ x => cases hd; exact absurd rfl (hrddesc x)
  | _ => exact exec_of_absent hd hp (by simp [opOf])

/-- Settles O37: a command that ends otherwise than with its effect wrote STATUS only, and so does an illegal word. -/
theorem errorsArePrecise : Obligations.ErrorsArePrecise := by
  have hprecise {i : Instr} {s t : State} (h : exec i s = .next t) (hc : t.code ≠ .ok) :
      t = statusOnly s t.code (opOf i) := by
    obtain ⟨c, -, rfl⟩ | ⟨u, -, rfl⟩ := exec_cases h
    · rfl
    · exact absurd rfl hc
  refine ⟨fun i s t => hprecise, fun w s t h hc => ?_⟩
  obtain ⟨i, hi, hexec⟩ | ⟨e, -, hillegal⟩ := execute_cases w s
  · have hop : opOf i = w.extractLsb' 60 4 := opOf_of_decode hi
    rw [← hop]
    exact hprecise (hexec ▸ h) hc
  · rw [hillegal] at h
    cases h
    rfl

end Sys2Proof.Claims
end

/-! ### The cause of each code but OK -/

section
namespace Sys2Proof.Machine

open Sys2Proof.Claims

/-- The conditions on which a command ends with a code other than OK (60_exceptions.md R125, R127); the later ones
presuppose that the descriptor is present. -/
inductive Cause (s : State) : Instr → Code → Prop where
  | badArgument {i : Instr} (h : BadArgument i s) : Cause s i .invalidArgument
  | alreadyActive {d : DescIndex} {v : Word} (hp : present s d = true) (hs : (descAt s d).state = .active) :
      Cause s (.start d v) .skip
  | sameDuty {d : DescIndex} {f : Word} (hp : present s d = true) (hle : (descAt s d).duty.toNat ≤ 1000)
      (hf : dutyConv s.straps.dutyMul f = some ((descAt s d).duty.toNat : ℤ)) : Cause s (.setduty d f) .skip
  | dutyRefused {d : DescIndex} {f : Word} (hp : present s d = true)
      (hf : ∀ p, dutyConv s.straps.dutyMul f = some p → p < 0 ∨ 1000 < p) : Cause s (.setduty d f) .outOfRange
  | registryFull {d : DescIndex} {v : Word} (hp : present s d = true) (hc : s.regCount.toNat = 16)
      (hr : d ∉ regList s) : Cause s (.init d v) .capacityExceeded
  | lowFrequency {d : DescIndex} {v : Word} (hp : present s d = true) (hv : v.toNat < 10) :
      Cause s (.setfreq d v) .divideByZero

variable {s t : State} {i : Instr} {c : Code}

theorem exec_of_badArgument (h : BadArgument i s) : exec i s = .next (statusOnly s .invalidArgument (opOf i)) := by
  cases i with
  | config => exact exec_of_runOf_untouched (runConfig_of_badArgument h)
  | rddesc => exact exec_readback_of_none (.inl rfl) (readbackValue_of_bad h)
  | rdeng => exact exec_readback_of_none (.inr rfl) (readbackValue_of_bad h)
  | _ => exact exec_of_absent rfl h (by simp [opOf])

/-- A cause is sufficient: it decides the code, and nothing but STATUS is written. -/
theorem exec_of_cause (h : Cause s i c) : exec i s = .next (statusOnly s c (opOf i)) := by
  cases h with
  | badArgument h => exact exec_of_badArgument h
  | alreadyActive hp hs => exact exec_of_runOf_untouched (runStart_of_active hp hs)
  | sameDuty hp hle hf =>
    exact exec_of_runOf_untouched ((runSetduty_of_converted hp hf).trans (applyDuty_of_eq hle rfl))
  | dutyRefused hp hf => exact exec_of_runOf_untouched (runSetduty_of_refused hp hf)
  | registryFull hp hc hr => exact exec_of_runOf_untouched (runInit_of_full hp hc hr)
  | lowFrequency hp hv => exact exec_of_runOf_untouched (runSetfreq_of_lt hp hv)

/-- A good index and selector read a value (43_readback.md R119, R121). -/
theorem exists_readbackValue (hi : opOf i = 0x9 ∨ opOf i = 0xA) (h : ¬ BadArgument i s) :
    ∃ r, readbackValue s i = some r := by
  cases i with
  | rddesc d x =>
    simp only [BadArgument, not_or, not_le, not_lt] at h
    obtain ⟨hd, hx⟩ := h
    rw [readbackValue_rddesc hd]
    obtain rfl | rfl | rfl | rfl | rfl := descSelector_cases hx <;> exact ⟨_, rfl⟩
  | rdeng x =>
    simp only [readbackValue, engineField]
    split
    · exact ⟨_, rfl⟩
    split
    · exact ⟨_, rfl⟩
    split
    · exact ⟨_, rfl⟩
    next hcount hslot hshadow => exact absurd ⟨hcount, hslot, hshadow⟩ h
  | _ => simp [opOf] at hi

theorem runOf_ok_of_readback (hi : opOf i = 0x9 ∨ opOf i = 0xA) (h : ¬ BadArgument i s) : (runOf i s).1 = .ok := by
  obtain ⟨r, hr⟩ := exists_readbackValue hi h
  rw [runOf_readback hi, hr]
  rfl

theorem runSetfreq_ok_of_le {d : DescIndex} (hp : present s d = true) {v : Word} (hv : 10 ≤ v.toNat) :
    (runSetfreq d v s).1 = .ok := by
  rw [runSetfreq, hp, freqToPeriod_of_le hv]
  rfl

/-- SETDUTY of a present descriptor refuses its operand, finds its permille in the cache, or ends with OK. -/
theorem setduty_cause_or_ok {d : DescIndex} (hp : present s d = true) (f : Word) :
    (∃ c, Cause s (.setduty d f) c) ∨ (runSetduty d f s).1 = .ok := by
  by_cases hbad : ∀ p, dutyConv s.straps.dutyMul f = some p → p < 0 ∨ 1000 < p
  · exact .inl ⟨_, .dutyRefused hp hbad⟩
  push Not at hbad
  obtain ⟨p, hf, hlo, hhi⟩ := hbad
  lift p to ℕ using hlo
  have hle : p ≤ 1000 := by omega
  by_cases heq : (descAt s d).duty.toNat = p
  · subst heq
    exact .inl ⟨_, .sameDuty hp hle hf⟩
  · exact .inr (by rw [runSetduty_of_converted hp hf, applyDuty_of_ne hle heq])

/-- The causes are all there are: a command without one ends with OK. -/
theorem cause_or_ok (i : Instr) (s : State) : (∃ c, Cause s i c) ∨ (runOf i s).1 = .ok := by
  by_cases hbad : BadArgument i s
  · exact .inl ⟨_, .badArgument hbad⟩
  cases i with
  | config => exact .inr (congrArg Prod.fst (runConfig_of_not_badArgument hbad))
  | init d x =>
    obtain ⟨habsent, -⟩ | ⟨⟨hp, hc, hr⟩, -⟩ | ⟨-, u, -, hrun⟩ := runInit_cases d x s
    · exact absurd habsent hbad
    · exact .inl ⟨_, .registryFull hp hc hr⟩
    · exact .inr (congrArg Prod.fst hrun)
  | deinit => exact .inr (runDeinit_ok_of_present (eq_true_of_ne_false hbad))
  | start d x =>
    have hp : present s d = true := eq_true_of_ne_false hbad
    by_cases hs : (descAt s d).state = .active
    · exact .inl ⟨_, .alreadyActive hp hs⟩
    · exact .inr (runStart_ok_of_inactive hp (state_eq_inactive_of_ne_active hs))
  | stop => exact .inr (runStop_ok_of_present (eq_true_of_ne_false hbad))
  | setper d v => exact .inr (congrArg Prod.fst (runSetper_of_present (eq_true_of_ne_false hbad) v))
  | setduty d f => exact setduty_cause_or_ok (eq_true_of_ne_false hbad) f
  | setfreq d v =>
    have hp : present s d = true := eq_true_of_ne_false hbad
    obtain hv | hv := lt_or_ge v.toNat 10
    · exact .inl ⟨_, .lowFrequency hp hv⟩
    · exact .inr (runSetfreq_ok_of_le hp hv)
  | rddesc => exact .inr (runOf_ok_of_readback (.inl rfl) hbad)
  | rdeng => exact .inr (runOf_ok_of_readback (.inr rfl) hbad)

/-- A command ends with a code other than OK exactly on that code's cause. -/
theorem code_eq_iff_cause (h : exec i s = .next t) (hc : c ≠ .ok) : t.code = c ↔ Cause s i c := by
  refine ⟨?_, fun hcause => ?_⟩
  · rintro rfl
    obtain ⟨c, hcause⟩ | hok := cause_or_ok i s
    · rw [exec_of_cause hcause] at h
      cases h
      exact hcause
    · have hcode : t.code = (runOf i s).1 := congrArg State.code (exec_next h)
      exact absurd (hcode.trans hok) hc
  · rw [exec_of_cause hcause] at h
    cases h
    rfl

end Sys2Proof.Machine

namespace Sys2Proof.Claims

open Sys2Proof.Machine

/-- Settles O38: each code's condition collects the causes of that code. -/
theorem eachCodeHasItsCause : Obligations.EachCodeHasItsCause := by
  intro i s t h
  refine ⟨congrArg State.lastOp (exec_next h), ?_, ?_, ?_, ?_, ?_, ?_⟩
  · rw [code_eq_iff_cause h Code.noConfusion]
    constructor
    · intro hcause
      cases hcause with
      | alreadyActive hp hs => exact .inl ⟨_, _, rfl, hp, hs⟩
      | sameDuty hp hle hf => exact .inr ⟨_, _, rfl, hp, hle, hf⟩
    · rintro (⟨d, v, rfl, hp, hs⟩ | ⟨d, f, rfl, hp, hle, hf⟩)
      · exact .alreadyActive hp hs
      · exact .sameDuty hp hle hf
  · rw [code_eq_iff_cause h Code.noConfusion]
    exact ⟨fun | .badArgument hbad => hbad, .badArgument⟩
  · rw [code_eq_iff_cause h Code.noConfusion]
    exact ⟨fun | .dutyRefused hp hf => ⟨_, _, rfl, hp, hf⟩, fun ⟨_, _, hi, hp, hf⟩ => hi ▸ .dutyRefused hp hf⟩
  · rw [code_eq_iff_cause h Code.noConfusion]
    exact ⟨fun | .registryFull hp hc hr => ⟨_, _, rfl, hp, hc, hr⟩,
      fun ⟨_, _, hi, hp, hc, hr⟩ => hi ▸ .registryFull hp hc hr⟩
  · rw [code_eq_iff_cause h Code.noConfusion]
    exact ⟨fun | .lowFrequency hp hv => ⟨_, _, rfl, hp, hv⟩, fun ⟨_, _, hi, hp, hv⟩ => hi ▸ .lowFrequency hp hv⟩
  · rw [Ne, code_eq_iff_cause h Code.noConfusion]
    exact nofun

end Sys2Proof.Claims
end

/-! ### The reference timer -/

section
namespace Sys2Proof.Machine

/-- Of the counts below `n`, those below `cmp`. -/
theorem count_lt_eq_min (cmp n : ℕ) : Nat.count (· < cmp) n = min cmp n := by
  induction n with
  | zero => rw [Nat.count_zero, Nat.min_zero]
  | succ n ih =>
    rw [Nat.count_succ, ih]
    split <;> omega

/-- High for `min(CMP, R+1)` counts of every `R+1` (60_exceptions.md R138). -/
theorem refHighCounts_eq_min (reload cmp : ℕ) : refHighCounts reload cmp = min cmp (reload + 1) :=
  count_lt_eq_min cmp (reload + 1)

end Sys2Proof.Machine

namespace Sys2Proof.Claims

open Sys2Proof.Machine

/-- Settles O53: an unwrapped sentinel is above the reload, and a duty short of full on asks for at most `R` counts
and one. -/
theorem referenceTimerDuty : Obligations.ReferenceTimerDuty := by
  refine ⟨refHighCounts_eq_min, fun d r hr => ⟨?_, ?_, fun hlo hhi => ?_⟩⟩
  · rw [refHighCounts_eq_min]
    exact Nat.zero_min _
  · rw [refHighCounts_eq_min, toNat_compareValue_full, Nat.mod_eq_of_lt (by omega)]
    omega
  · have hle := one_add_duty_mul_div_le hhi r.toNat
    rw [refHighCounts_eq_min, toNat_compareValue_between hlo hhi]
    omega

end Sys2Proof.Claims
end

/-! PROOFS of the family 70_reset_and_hazards.md: the platform's reset as a step, and how many events a command emits. -/

/-! ### Sizes of event lists -/

section
namespace Sys2Proof.Machine

open Sys2Proof.Claims

/-- The siblings are a part of the registry (40_registry.md R88). -/
theorem length_siblings_le (s : State) (t : TimerIndex) : (siblings s t).length ≤ 16 :=
  (List.length_filter_le _ (regList s)).trans (length_regList_le s)

/-- A fan-out emits its reload, its section's two ends, its barrier, and one compare per sibling. -/
theorem length_fanOut (s : State) (t : TimerIndex) (r : Word) : (fanOut s t r).length = 4 + (siblings s t).length := by
  simp only [fanOut, List.length_append, List.length_map, List.length_cons, List.length_nil]
  omega

theorem length_eventsOnOk {s : State} {i : Instr} {n : ℕ}
    (hn : ∀ d, descOf? i = some d → n = (siblings s (descAt s d).tmr).length) :
    (eventsOnOk s i).length = okEvents n i := by
  cases i with
  | start d x =>
    rw [hn d rfl, eventsOnOk, List.length_cons, List.length_append, length_fanOut, List.length_singleton, okEvents]
    omega
  | setper d v | setfreq d v => rw [hn d rfl, eventsOnOk, length_fanOut, okEvents]
  | _ => rfl

end Sys2Proof.Machine
end

section
namespace Sys2Proof.Claims

open Sys2Proof.Machine

/-- Settles O12: the step is the pending move, and the reset is built from the parameters, so it keeps them. -/
theorem platformResetStep : Obligations.PlatformResetStep := fun s rest h =>
  have hstep : step s = .next (platformReset { s with inputs := rest }) := step_input h
  ⟨_, hstep, rfl, params_platformReset _⟩

/-- Settles O43: a command emits nothing, or the events of its effect. -/
theorem eventCounts : Obligations.EventCounts := by
  intro i s t h
  refine ⟨length_siblings_le s, ?_⟩
  obtain ⟨c, hc, rfl, hev⟩ | ⟨u, -, rfl, hev⟩ := exec_newEvents h <;> rw [hev]
  · exact ⟨fun _ => rfl, fun hok => absurd hok hc⟩
  · exact ⟨fun hne => absurd rfl hne, fun _ _ hn => length_eventsOnOk hn⟩

end Sys2Proof.Claims
end
